-- ==== Sys2Proof/Word.lean ====
section
/-! DEFINITION. The words of the link and the plain numbers of the manual (00, Table 3.1; 11, R182). -/

namespace Sys2Proof

/-- One byte of a frame (R182). -/
abbrev Byte := BitVec 8

/-- A 40-bit unit mark (Table 5.1). -/
abbrev Mark := BitVec 40

/-- A 16-bit chain sequence or exception sequence number. -/
abbrev Seq := BitVec 16

/-- A 32-bit stow clock value (R161). -/
abbrev Tick := BitVec 32

/-- A strap or target position 0..3 (R74, R187). -/
abbrev Pos := BitVec 2

/-- A ship lane number; frames carry 0..255. -/
abbrev Lane := Nat

/-- A handle of the unit table, 0..511 (section 2.1 of chapter 2). -/
abbrev Handle := Nat

end Sys2Proof
end

