-- ==== Sys2Proof/Syntax.lean ====
section
/-! DEFINITION. The commands of the block (one constructor of `Instr` per row of spec/opcode_table.json) and the data
they carry: the manual's named values, the frames of Table 11.1, the request bodies and the reply bodies. -/

namespace Sys2Proof

/-! ## Named values -/

/-- Role straps (R74). -/
inductive Role where
  | head | mid | tail | sole
  deriving DecidableEq, Repr

/-- Voyage states SETUP, OPEN and CLOSED (R149). -/
inductive Voyage where
  | setup | opened | closed
  deriving DecidableEq, Repr

/-- The six unit kinds. -/
inductive UnitKind where
  | car | van | truck | artic | trailer | project
  deriving DecidableEq, Repr

/-- One value for each unit kind, in kind order. -/
structure PerKind (α : Type) where
  car : α
  van : α
  truck : α
  artic : α
  trailer : α
  project : α
  deriving DecidableEq, Repr

/-- Admin state of a lane (Table 1.2). -/
inductive Admin where
  | opened | closed
  deriving DecidableEq, Repr

/-- Segregation codes 0..4 (Table 1.5). -/
inductive SegCode where
  | none | notNeighbour | notSameLane | laneApart | deckApart
  deriving DecidableEq, Repr

/-- Hoist states (Table 7.1). -/
inductive HoistState where
  | stowed | deploying | deployed | stowing | fault
  deriving DecidableEq, Repr

/-- Unit record states (Table 2.1). -/
inductive RecState where
  | free | offered | trial | reserved | aboard | left
  deriving DecidableEq, Repr

/-- The states in which a record is the holder of its mark (R24, R81). -/
inductive HolderState where
  | offered | reserved | aboard
  deriving DecidableEq, Repr, Inhabited

/-- The fifteen eligibility checks (Table 3.2). -/
inductive Check where
  | kind | closed | held | suspect | count | height | unitMass | length | laneMass | deckMass
  | plug | order | hazard | heel | trim
  deriving DecidableEq, Repr

/-- The nine notice flags (Table 10.4). -/
inductive Notice where
  | logged | logFull | stabilityOut | lapsed | hoistFault | recordsLow | linkError | suspectLane | holdOverflow
  deriving DecidableEq, Repr

/-- One Bool for each of the nine notice flags. -/
structure NoticeSet where
  logged : Bool
  logFull : Bool
  stabilityOut : Bool
  lapsed : Bool
  hoistFault : Bool
  recordsLow : Bool
  linkError : Bool
  suspectLane : Bool
  holdOverflow : Bool
  deriving DecidableEq, Repr

/-- The sixteen exception kinds, in the order of Table 10.3. -/
inductive ExcKind where
  | order | wrongLane | forced | limit | restow | exitOrder | unknownExit | unplaced | unrecorded | lateConfirm
  | overcarried | hoistTimeout | hoistLate | hoistUnpermitted | hoistMoving | tallyClosed
  deriving DecidableEq, Repr

/-- Reply outcomes (Table 11.2). -/
inductive ReplyCode where
  | ok | pending | wrongState | wrongRole | badField | noSuch | full | duplicate | busy | blocked | profileBad | noEngine
  deriving DecidableEq, Repr

/-- Reasons of a HOLD frame (Table 4.4). -/
inductive HoldReason where
  | noLane | alreadyAboard | invalid
  deriving DecidableEq, Repr

/-- Reasons of a CONFIRM with result NONE (R87, R91, R93). -/
inductive NoneReason where
  | noLane | revoked | closed | cancelled
  deriving DecidableEq, Repr

/-- Reasons of a REVOKE frame (R93). -/
inductive RevokeReason where
  | revoked | closed
  deriving DecidableEq, Repr

/-- Reasons of a LAPSE frame (R91, R99, R102). -/
inductive LapseReason where
  | timeout | cancelled
  deriving DecidableEq, Repr

/-- Reasons of a SHUT OUT frame (R77, R94, R103, R108, R109). -/
inductive ShutReason where
  | notOpen | holdFull | retries | cancelled | sealed | aborted
  deriving DecidableEq, Repr

/-- Direction of a HOIST PERMIT (R142). -/
inductive HoistMove where
  | lower | raise
  deriving DecidableEq, Repr

/-- Report criteria (R166). -/
inductive Criterion where
  | aboard | plan | changed | rank (n : Nat)
  deriving DecidableEq, Repr

/-- Report state of a HEAD or SOLE (Table 9.1). -/
inductive ReportState where
  | idle | sending | awaiting
  deriving DecidableEq, Repr

/-- The tables OPEN VOYAGE names (Table 8.2). -/
inductive ProfileTable where
  | range | lane | sections
  deriving DecidableEq, Repr

/-- The faults OPEN VOYAGE names (Table 8.2). -/
inductive ProfileFault where
  | noLaneDefined | deckMissing | stopArm | portNeighbour | starboardNeighbour | hoistLane | coveredLane
  deriving DecidableEq, Repr

/-- The two input ports of an engine (chapter 11). -/
inductive InPort where
  | fwd | ret
  deriving DecidableEq, Repr

/-- The two output ports of an engine (chapter 11). -/
inductive OutPort where
  | fwd | ret
  deriving DecidableEq, Repr

/-- The two kinds of frame an output arbiter chooses between (R186). -/
inductive SendKind where
  | pass | originated
  deriving DecidableEq, Repr

/-! ## Unit descriptions, lane entries and records -/

/-- A unit description as the engine holds it (Table 2.2, Table 1.8). -/
structure UnitDesc where
  mark : Mark
  kind : UnitKind
  length : Nat
  mass : Nat
  height : Nat
  rank : Nat
  hazard : Option Nat
  reefer : Bool
  deriving DecidableEq, Repr

/-- A unit description as a frame carries it: the coded fields of Table 11.3 (long) or Table 11.4 (short), each in the
width of its table. -/
inductive Desc where
  | long (kind : BitVec 3) (reefer : Bool) (rank : BitVec 3) (mark : Mark) (length : Byte) (mass : BitVec 16)
      (height : BitVec 16) (hazard : Byte)
  | short (kind : BitVec 3) (rank : BitVec 3) (mark : Mark) (length : BitVec 6) (mass : BitVec 6) (height : BitVec 3)
  deriving DecidableEq, Repr

/-- A defined lane table entry (Table 1.2). -/
structure LaneEntry where
  deck : Nat
  arm : Int
  stopArm : Int
  usable : Nat
  clearance : Nat
  plugs : Nat
  kinds : PerKind Bool
  port : Option Lane
  starboard : Option Lane
  admin : Admin
  laneMass : Nat
  unitMass : Nat
  deriving DecidableEq, Repr

/-- The fields a WRITE LANE in mode WRITE may carry (R5, R6). A neighbour is absent from the request (`none`), carries
the value "none" (`some none`) or names a lane. The lane mass limit is carried in 16 bits (R2). The manual prints no carriage of
the admin state and of the set of allowed kinds: they are taken to be carried so that they hold OPEN and CLOSED alone, and the six
kinds alone, and R2 then refuses none (log 33, DESIGN CHOICE). -/
structure LaneFields where
  deck : Option Nat
  arm : Option Int
  stopArm : Option Int
  usable : Option Nat
  clearance : Option Nat
  plugs : Option Nat
  kinds : Option (PerKind Bool)
  port : Option (Option Lane)
  starboard : Option (Option Lane)
  admin : Option Admin
  laneMass : Option (BitVec 16)
  unitMass : Option Nat
  deriving DecidableEq, Repr

/-- A defined hoist section: its Profile Store entry (Table 1.4) with its hoist state and travel timer (R138). The timer
is `none` while it is stopped. -/
structure SectionEntry where
  hoist : List Lane
  covered : List Lane
  reduced : Nat
  travel : Nat
  state : HoistState
  timer : Option Nat
  deriving DecidableEq, Repr

/-- Stability limits (Table 1.6). -/
structure Limits where
  hLim : Int
  tMin : Int
  tMax : Int
  deriving DecidableEq, Repr

/-- Placement policy (Table 1.7), the gaps apart. -/
structure Policy where
  wH : Nat
  wF : Nat
  wO : Nat
  pEmpty : Nat
  offerTimeout : Nat
  resTimeout : Nat
  deriving DecidableEq, Repr

/-- The fields a WRITE POLICY may carry, the timeouts and P_empty in their frame widths (R2, R17). -/
structure PolicyFields where
  wH : Option Nat
  wF : Option Nat
  wO : Option Nat
  pEmpty : Option Byte
  offerTimeout : Option Byte
  resTimeout : Option (BitVec 16)
  deriving DecidableEq, Repr

/-- A unit record (Table 2.2). A field the record's state does not carry is `none` (R22). -/
structure UnitRec where
  state : RecState
  desc : Option UnitDesc
  lane : Option Lane
  offset : Option Nat
  centre : Option Int
  sequence : Option Seq
  deadline : Option Nat
  aboardTime : Option Tick
  departureTime : Option Tick
  forced : Bool
  defaulted : Bool
  cancelPending : Bool
  changed : Bool
  deriving DecidableEq, Repr

/-- The detail of an exception record (Table 10.2). -/
inductive ExcDetail where
  | checks (failed : List Check)
  | hoistSection (id : Nat)
  deriving DecidableEq, Repr

/-- An exception record (Table 10.2). -/
structure ExcRecord where
  sequence : Seq
  clock : Tick
  kind : ExcKind
  mark : Option Mark
  lane : Option Lane
  second : Option Mark
  detail : Option ExcDetail
  deriving DecidableEq, Repr

/-- A report entry (Table 9.2). -/
structure ReportEntry where
  mark : Mark
  kind : UnitKind
  rank : Nat
  state : RecState
  lane : Lane
  offset : Option Nat
  mass : Nat
  forced : Bool
  defaulted : Bool
  deriving DecidableEq, Repr

/-! ## Frames -/

/-- The bid block of a CHECK-IN (Table 4.3). The status governs which fields are present (R191). The duplicate state is `none` for
code 0, to which Table 11.5 gives no meaning (log 35). -/
inductive BidBlock where
  | none
  | bid (score : Nat) (pos : Pos) (lane : Lane) (offset : Nat)
  | duplicate (pos : Pos) (lane : Lane) (offset : Nat) (state : Option HolderState)
  | invalid
  deriving DecidableEq, Repr

/-- The retry fields (Table 4.2). -/
structure Retry where
  set : Bool
  count : Nat
  heldSince : Tick
  deriving DecidableEq, Repr

/-- A CHECK-IN frame (section 4.2 of chapter 4). -/
structure CheckIn where
  desc : Desc
  sequence : Seq
  retry : Retry
  bid : BidBlock
  deriving DecidableEq, Repr

/-- The result of a CONFIRM (Table 4.4, R87). The state of DUPLICATE is the one the bid block carried (log 35). -/
inductive ConfirmResult where
  | winner (pos : Pos) (lane : Lane) (offset : Nat)
  | none (reason : NoneReason)
  | duplicate (pos : Pos) (lane : Lane) (state : Option HolderState)
  | invalid
  deriving DecidableEq, Repr

/-- A CONFIRM frame (R87). The unit mark it carries is the mark of its description. -/
structure Confirm where
  desc : Desc
  sequence : Seq
  retry : Retry
  result : ConfirmResult
  deriving DecidableEq, Repr

/-- A REPORT TOKEN (R171), and what an engine holds to pass on with its section (R169). -/
structure Token where
  serial : Byte
  criterion : Criterion
  count : Nat
  deriving DecidableEq, Repr

/-- The head of a REQUEST body: target position and tag (R187). -/
structure ReqHead where
  target : Pos
  tag : Byte
  deriving DecidableEq, Repr

/-- Items of READ PROFILE (Table 1.9). -/
inductive ProfileItem where
  | summary
  | lane (n : Nat)
  | deck (n : Nat)
  | hoistSection (id : Nat)
  | segregation (cls : Nat)
  | limits
  | policy
  | defaultUnit
  | other (selector : Byte)
  deriving DecidableEq, Repr

/-- What a READ UNIT names (R47). -/
inductive UnitKey where
  | handle (h : Nat)
  | mark (m : Mark)
  deriving DecidableEq, Repr

/-- The criterion field of a REPORT request; `other` is any code that names none of the four (R165). -/
inductive CriterionField where
  | aboard | plan | changed | rank (n : Nat) | other (code : Byte)
  deriving DecidableEq, Repr

/-- Request kinds with their bodies. `malformed` is a REQUEST of a kind the engine does not know, or whose body is
shorter or longer than its kind requires (R188). -/
inductive ReqBody where
  | writeRange (base count : Nat)
  | writeLane (lane : Lane) (fields : LaneFields)
  | undefineLane (lane : Lane)
  | writeDeck (deck limit : Nat)
  | removeDeck (deck : Nat)
  | writeSection (id : Nat) (hoist covered : List Lane) (reduced : Nat) (travel : Option Nat)
  | removeSection (id : Nat)
  | writeSegregation (triples : List (Nat × Nat × Nat))
  | writeLimits (hLim tMin tMax : Option Int)
  | writePolicy (fields : PolicyFields)
  | writeGaps (gaps : PerKind (Option Nat))
  | writeDefaultUnit (desc : Desc)
  | readProfile (item : ProfileItem)
  | readUnit (key : UnitKey)
  | readLane (lane : Lane) (start : Nat)
  | readStowSummary
  | evaluate (desc : Desc) (lane : Option Lane)
  | trial (desc : Desc)
  | undo
  | commitTrials
  | readHoldList (start : Nat)
  | deploy (id : Nat)
  | stow (id : Nat)
  | openVoyage
  | clearVoyage
  | ballast (heel trim : BitVec 32)
  | readVoyage
  | report (criterion : CriterionField)
  | drainLog (count : Nat)
  | ackNotices (flags : NoticeSet)
  | setEnables (enables : NoticeSet)
  | malformed (kind : Byte) (body : List Byte)
  deriving DecidableEq, Repr

/-- One listed occupant in a READ LANE reply (R48). -/
structure OccupantView where
  place : Nat
  handle : Handle
  state : RecState
  rank : Nat
  offset : Nat
  length : Nat
  deriving DecidableEq, Repr

/-- The body of a READ LANE reply for a defined lane (R48). -/
structure LaneView where
  lane : Lane
  count : Nat
  projFill : Nat
  commFill : Nat
  projMass : Nat
  commMass : Nat
  plugsUsed : Nat
  tailRank : Option Nat
  suspect : Bool
  held : Bool
  clearance : Nat
  occupants : List OccupantView
  deriving DecidableEq, Repr

/-- The body of a READ STOW SUMMARY reply (R49). -/
structure StowSummary where
  free : Nat
  offered : Nat
  trial : Nat
  reserved : Nat
  aboard : Nat
  left : Nat
  general : Bool
  heelOffset : Int
  trimOffset : Int
  projHeel : Int
  projTrim : Int
  commHeel : Int
  commTrim : Int
  decks : List (Nat × Nat × Nat)
  suspects : List Lane
  suspectCount : Nat
  deriving DecidableEq, Repr

/-- One entry in a READ HOLD LIST reply (R110). -/
structure HoldView where
  place : Nat
  mark : Mark
  kind : Option UnitKind
  rank : Nat
  reason : NoneReason
  heldSince : Tick
  retries : Nat
  deriving DecidableEq, Repr

/-- The body of a READ VOYAGE reply (R163). -/
structure VoyageView where
  role : Role
  position : Pos
  voyage : Voyage
  pendingClear : Bool
  clock : Tick
  heelOffset : Int
  trimOffset : Int
  projHeel : Int
  projTrim : Int
  heelOut : Bool
  trimOut : Bool
  deriving DecidableEq, Repr

/-- A defined section in a READ PROFILE reply (Table 1.9). -/
structure SectionView where
  hoist : List Lane
  covered : List Lane
  reduced : Nat
  travel : Nat
  state : HoistState
  deriving DecidableEq, Repr

/-- Reply bodies, one form for each answer the manual gives. -/
inductive ReplyBody where
  | empty
  | timeouts (offer res : Nat)
  | profileSummary (base count defined : Nat) (decks sections : List Nat)
  | profileLane (entry : Option LaneEntry)
  | profileDeck (deck limit : Nat)
  | profileSection (entry : Option SectionView)
  | profileSegregation (codes : List SegCode)
  | profileLimits (limits : Limits)
  | profilePolicy (policy : Policy) (gaps : PerKind Nat)
  | profileDefault (desc : Desc)
  | unitRecord (handle : Handle) (record : UnitRec) (place : Option Nat) (trial : Option Handle)
  | laneUndefined
  | laneView (view : LaneView)
  | stowSummary (view : StowSummary)
  | evalLane (lane : Lane) (failed : List Check) (offset fillAfter : Nat) (hAfter tAfter : Int) (score : Option Nat)
  | evalBest (candidates eligible : Nat) (lane score offset fillAfter : Nat) (hAfter tAfter : Int)
  | evalNone (candidates eligible : Nat)
  | trialPlaced (handle : Handle) (lane : Lane) (offset score depth : Nat)
  | trialNone
  | undone (handle : Handle) (mark : Mark) (depth : Nat)
  | committed (converted discarded : Nat)
  | holdList (count : Nat) (entries : List HoldView)
  | hoist (id : Nat) (state : HoistState)
  | blocked (lane : Lane) (handle : Handle) (mark : Mark) (height : Option Nat)
  | profileBad (table : ProfileTable) (index : Nat) (fault : ProfileFault)
  | ballast (heelOffset trimOffset projHeel projTrim : Int)
  | voyage (view : VoyageView)
  | reportSerial (serial : Byte)
  | drained (records : List ExcRecord) (left : Nat) (next : Seq)
  | notices (flags enables : NoticeSet) (armed : Bool)
  | target (pos : Pos)
  deriving DecidableEq, Repr

/-- The frames of Table 11.1. `unknown` is a frame whose type byte names none of them (R185). A body shorter or longer than its type
carries is held for a REQUEST alone, to which R188 gives an effect (`ReqBody.malformed`); of every other type the manual does not
say what an engine does with one, and the model has no such frame (log 37, DESIGN CHOICE). -/
inductive Frame where
  | checkIn (c : CheckIn)
  | tallyOn (mark : Mark) (lane : Lane) (desc : Option Desc) (placed : Bool)
  | tallyOff (mark : Mark) (lane : Lane) (removed : Bool)
  | hoistStatus (target : Pos) (id : Nat) (down : Bool)
  | request (q : ReqHead) (body : ReqBody)
  | laneMask (lanes : BitVec 256) (action : Admin)
  | abort
  | sealOrder
  | unsealOrder (advance : Bool)
  | cancel (mark : Mark)
  | clock (value : Tick)
  | identify
  | assign (mark : Mark) (lane : Lane) (offset rank : Nat) (sequence : Seq)
  | hold (mark : Mark) (sequence : Seq) (reason : HoldReason)
  | revoke (mark : Mark) (lane : Lane) (sequence : Seq) (reason : RevokeReason)
  | lapse (mark : Mark) (lane : Lane) (sequence : Option Seq) (reason : LapseReason)
  | shutOut (mark : Mark) (reason : ShutReason)
  | hoistPermit (pos : Pos) (id : Nat) (move : HoistMove) (travel : Nat)
  | reportToken (t : Token)
  | confirm (c : Confirm)
  | freed (pos : Pos)
  | trailer (serial : Byte) (count : Nat)
  | reply (tag : Byte) (pos : Pos) (code : ReplyCode) (body : ReplyBody)
  | attention (pos : Pos) (flags : NoticeSet) (logged : Nat) (next : Seq)
  | ident (pos : Pos) (role : Role) (serial : BitVec 32) (base count : Nat) (voyage : Voyage)
  | reportHeader (serial : Byte) (criterion : Criterion) (clock : Tick)
  | sectionHeader (serial : Byte) (pos : Pos) (count : Nat) (commHeel commTrim : Int) (decks : List (Nat × Nat))
  | reportRecords (serial : Byte) (pos : Pos) (entries : List (Bool × ReportEntry))
  | reportAborted (serial : Byte)
  | unknown (type : Byte) (body : List Byte)
  deriving DecidableEq, Repr

/-- The frame types of Table 11.1. -/
inductive FrameType where
  | checkIn | tallyOn | tallyOff | hoistStatus | request | laneMask | abort | sealOrder | unsealOrder | cancel | clock | identify
  | assign | hold | revoke | lapse | shutOut | hoistPermit | reportToken | confirm | freed | trailer | reply | attention
  | ident | reportHeader | sectionHeader | reportRecords | reportAborted
  deriving DecidableEq, Repr

/-! ## Commands -/

/-- The commands of the block, one constructor per row of spec/opcode_table.json, in its order. -/
inductive Instr where
  | powerOn (roleStraps posStraps : BitVec 2)
  | resetAssert
  | stowClockTick
  | offerDeadline (h : Handle)
  | reservationLapse (h : Handle)
  | travelTimerExpiry (id : Nat)
  | reportTimerExpiry
  | frameArrival (p : InPort) (wire : List Byte) (f : Frame)
  | arbiterSend (o : OutPort) (heldOff : Bool)
  | passThrough (p : InPort) (f : Frame)
  | checkIn (c : CheckIn)
  | confirm (c : Confirm)
  | freed (pos : Pos)
  | tallyOn (mark : Mark) (lane : Lane) (desc : Option Desc) (placed : Bool)
  | tallyOff (mark : Mark) (lane : Lane) (removed : Bool)
  | hoistStatusDown (target : Pos) (id : Nat)
  | hoistStatusUp (target : Pos) (id : Nat)
  | trailer (serial : Byte) (count : Nat)
  | reportToken (t : Token)
  | laneMask (lanes : BitVec 256) (action : Admin)
  | abort
  | sealOrder
  | unsealOrder (advance : Bool)
  | cancel (mark : Mark)
  | clock (value : Tick)
  | identify
  | requestPassedOn (q : ReqHead) (body : ReqBody)
  | noEngineReply (q : ReqHead) (body : ReqBody)
  | unknownRequest (q : ReqHead) (kind : Byte) (body : List Byte)
  | writeRange (q : ReqHead) (base count : Nat)
  | writeLane (q : ReqHead) (lane : Lane) (fields : LaneFields)
  | writeLaneUndefine (q : ReqHead) (lane : Lane)
  | writeDeck (q : ReqHead) (deck limit : Nat)
  | writeDeckRemove (q : ReqHead) (deck : Nat)
  | writeSection (q : ReqHead) (id : Nat) (hoist covered : List Lane) (reduced : Nat) (travel : Option Nat)
  | writeSectionRemove (q : ReqHead) (id : Nat)
  | writeSegregation (q : ReqHead) (triples : List (Nat × Nat × Nat))
  | writeLimits (q : ReqHead) (hLim tMin tMax : Option Int)
  | writePolicy (q : ReqHead) (fields : PolicyFields)
  | writeGaps (q : ReqHead) (gaps : PerKind (Option Nat))
  | writeDefaultUnit (q : ReqHead) (desc : Desc)
  | readProfile (q : ReqHead) (item : ProfileItem)
  | readUnit (q : ReqHead) (key : UnitKey)
  | readLane (q : ReqHead) (lane : Lane) (start : Nat)
  | readStowSummary (q : ReqHead)
  | evaluate (q : ReqHead) (desc : Desc) (lane : Option Lane)
  | trial (q : ReqHead) (desc : Desc)
  | undo (q : ReqHead)
  | commitTrials (q : ReqHead)
  | readHoldList (q : ReqHead) (start : Nat)
  | deploy (q : ReqHead) (id : Nat)
  | stow (q : ReqHead) (id : Nat)
  | openVoyage (q : ReqHead)
  | clearVoyage (q : ReqHead)
  | ballast (q : ReqHead) (heel trim : BitVec 32)
  | readVoyage (q : ReqHead)
  | report (q : ReqHead) (criterion : CriterionField)
  | drainLog (q : ReqHead) (count : Nat)
  | ackNotices (q : ReqHead) (flags : NoticeSet)
  | setEnables (q : ReqHead) (enables : NoticeSet)
  deriving DecidableEq, Repr

end Sys2Proof
end

