-- ==== Sys2Proof/Config.lean ====
section
/-! DEFINITION. The sizes the manual fixes for every engine, and, as opaque constants, what it leaves to the
implementation or leaves open: nothing here gives those a value, so a claim holds whatever they are. -/

namespace Sys2Proof

/-! ## Sizes of Table 1.1 and of the rules -/

/-- Records of the unit table (section 2.1 of chapter 2). -/
abbrev Config.unitRecords : Nat := 512
/-- Live records at which general allocation is refused (R25). -/
abbrev Config.generalLimit : Nat := 480
/-- Occupants a lane's list may hold (R29). -/
abbrev Config.laneCapacity : Nat := 40
/-- Lanes of a range (R3). -/
abbrev Config.rangeCapacity : Nat := 64
/-- Entries of the deck table (R10). -/
abbrev Config.deckCapacity : Nat := 4
/-- Offers an engine may hold (R84). -/
abbrev Config.offerCapacity : Nat := 8
/-- Offers plus reservations an engine may hold (R84). -/
abbrev Config.commitmentCapacity : Nat := 64
/-- Depth of the trial stack (R111). -/
abbrev Config.trialCapacity : Nat := 5
/-- Entries of the hold list (R106). -/
abbrev Config.holdCapacity : Nat := 32
/-- The retry count at which a unit is shut out (R108). -/
abbrev Config.retryLimit : Nat := 15
/-- Records of the exception log (R176). -/
abbrev Config.logCapacity : Nat := 32
/-- Frames of a receive queue (R183). -/
abbrev Config.rxCapacity : Nat := 16
/-- Frames in an originated queue at which intake stops (R186). -/
abbrev Config.intakeLimit : Nat := 32
/-- Entries of a REPORT RECORDS frame (R169). -/
abbrev Config.recordsPerFrame : Nat := 6
/-- Bytes of a body that fill a frame to 72 bytes (R182). -/
abbrev Config.bodyCapacity : Nat := 67
/-- Ticks of the report timer (R171). -/
abbrev Config.reportTicks : Nat := 100

/-! ## What an implementation fixes (log 3, log 9) -/

/-- The engine's serial number, fixed at manufacture (R76). -/
opaque Config.serialNumber : BitVec 32
/-- The type byte that names a frame type (R182): the manual prints none. -/
opaque Config.typeByte : FrameType → Byte
/-- The code of a reply outcome: the manual prints none. -/
opaque Config.outcomeCode : ReplyCode → Byte
/-- The value of the i-th filler byte of a short frame (R182). -/
opaque Config.filler : Nat → Byte
/-- The code of a request kind (R187): the manual prints none. -/
opaque Config.requestKind : ReqBody → Byte
/-- The bytes of a frame that carry its named values, flags and sets, whose codes the manual does not print. -/
opaque Config.otherBytes : Frame → List Byte
/-- The width in bytes of the m-th field of the n-th part of a frame's body, where the manual prints none: what its value needs
where that is more, and 4 at most. -/
opaque Config.fieldWidth : Frame → Nat → Nat → Nat
/-- Where the n-th part of a frame's body stands in an order the manual does not print: parts follow one another by this
number. -/
opaque Config.fieldPlace : Frame → Nat → Nat
/-- Whether the m-th field of the n-th part of a frame's body, a count that can never be zero, is carried less one: section 3.4
of the introduction carries such counts so and says that each is marked where its layout is given, and no layout of these is
given (log 31). -/
opaque Config.countLessOne : Frame → Nat → Nat → Bool
/-- What a field of the given number of bits carries for an offset that does not fit it: the manual bounds no offset (R30) and
gives the offset of a report entry 14 bits and that of a bid block 16 (log 30). -/
opaque Config.longOffset : Nat → Nat → Nat

/-! ## What the manual leaves open (log 10, log 35) -/

/-- Whether the REPORT ABORTED of a CLEAR VOYAGE second step joins the return queue ahead of its REPLY. -/
opaque Config.abortedAheadOfReply : Bool

/-- The duplicate state by whose row of Table 4.4 a TAIL settles a DUPLICATE bid block whose state code is 0: Table 11.5 gives that
code no meaning and Table 4.4 no row (log 35). -/
opaque Config.unnamedHolder : CheckIn → HolderState

end Sys2Proof
end

