-- ==== Sys2Proof/Machine/State.lean ====
section
/-! DEFINITION. The state of one engine, plain data, and the state after power-on. Each field's docstring names the rule
of spec/ that gives it. -/

namespace Sys2Proof.Machine

/-- The reasons a command could stop the block: none. Every refused request is a REPLY, every discarded frame is
LINK_ERROR, and every command leaves a next state, so no constructor is needed (safe: nothing is stopped). -/
inductive Fault where
  deriving DecidableEq, Repr

/-- The reasons a command has no meaning in this model. -/
inductive Refusal where
  /-- Raised by `exec` alone, for a command whose meaning is not written yet (safe: the run stops). No arm uses it. -/
  | notModelled (mnemonic : String)
  deriving DecidableEq, Repr

/-- One lane of the range: its lane table entry (`none`: undefined, R4), its occupant list from the forward stop aft
(R29) and its SUSPECT flag (R35). -/
structure LaneSlot where
  entry : Option LaneEntry
  occupants : List Handle
  suspect : Bool
  deriving DecidableEq, Repr

/-- One entry of the hold list (R106). The description is in long form. -/
structure HoldEntry where
  desc : Desc
  reason : NoneReason
  heldSince : Tick
  retries : Nat
  deriving DecidableEq, Repr

/-- What an output port drives: a frame and its bytes (R182). -/
structure Driven where
  frame : Frame
  wire : List Byte
  deriving DecidableEq, Repr

/-- The state of one engine. -/
structure State where
  /-- Commands waiting, oldest first (the model's own; log 1). -/
  pending : List Instr
  /-- RESET_N is low (R192). -/
  inReset : Bool
  /-- Role, as strapped (R74). -/
  role : Role
  /-- Position, as strapped (R74). -/
  position : Pos
  /-- Lane range base (R3). -/
  rangeBase : Nat
  /-- One slot per lane of the range; its length is the range count (R3). -/
  lanes : List LaneSlot
  /-- Deck table: deck number to mass limit (R10). -/
  decks : List (Nat × Nat)
  /-- Defined hoist sections by id (R12, R138). -/
  sections : List (Nat × SectionEntry)
  /-- Segregation matrix: key 16c + d to a code other than NONE (R14). -/
  segregation : List (Nat × SegCode)
  /-- Stability limits (R15). -/
  limits : Limits
  /-- Placement policy (R17). -/
  policy : Policy
  /-- Gaps (R18). -/
  gaps : PerKind Nat
  /-- Default unit (R19). -/
  defaultUnit : UnitDesc
  /-- Unit table: handle to a record that is not FREE (R22). -/
  records : List (Handle × UnitRec)
  /-- Order of departure of the LEFT records, earliest first (R27). -/
  departures : List Handle
  /-- Offer list, oldest first (R84). -/
  offers : List Handle
  /-- Reservation list, by deadline (R97). -/
  reservations : List Handle
  /-- Trial stack, top first (R111). -/
  trials : List Handle
  /-- Chain sequence counter (R79). -/
  chainSeq : Seq
  /-- Hold list, oldest first (R106). -/
  holds : List HoldEntry
  /-- Voyage state (R149). -/
  voyage : Voyage
  /-- Pending-clear flag (R156). -/
  pendingClear : Bool
  /-- Stow clock (R161). -/
  stowClock : Tick
  /-- Heel offset (R162). -/
  heelOffset : Int
  /-- Trim offset (R162). -/
  trimOffset : Int
  /-- Report serial (Table 9.1). -/
  reportSerial : Byte
  /-- Report state (Table 9.1). -/
  reportState : ReportState
  /-- Report timer, `none` while stopped (Table 9.1). -/
  reportTimer : Option Nat
  /-- Report in progress: serial and criterion (Table 9.1). -/
  report : Option (Byte × Criterion)
  /-- Section state EMITTING (Table 9.1). -/
  emitting : Bool
  /-- Report buffer: entries whose frame has not left (Table 9.1). -/
  buffer : List ReportEntry
  /-- The token, or trailer, held with the buffer (R169). -/
  heldToken : Option Token
  /-- Exception log, oldest first (R176). -/
  log : List ExcRecord
  /-- Next exception sequence number (R176). -/
  nextExc : Seq
  /-- Notice flags (R178). -/
  notices : NoticeSet
  /-- Enables (R181). -/
  enables : NoticeSet
  /-- The armed flag (R179). -/
  armed : Bool
  /-- Receive queue of forward in (R183). -/
  rxFwd : List Frame
  /-- Receive queue of return in (R183). -/
  rxRet : List Frame
  /-- Originated queue of forward out (R186). -/
  origFwd : List Frame
  /-- Originated queue of return out (R186). -/
  origRet : List Frame
  /-- Pass-through frames waiting on forward out (R185, R186). -/
  passFwd : List Frame
  /-- Pass-through frames waiting on return out (R185, R186). -/
  passRet : List Frame
  /-- The kind forward out sent last (R186). -/
  lastFwd : SendKind
  /-- The kind return out sent last (R186). -/
  lastRet : SendKind
  /-- What forward out drove last (R192, Table 11.8). -/
  drivenFwd : Option Driven
  /-- What return out drove last (R192, Table 11.8). -/
  drivenRet : Option Driven
  deriving DecidableEq, Repr

/-- No notice flag. -/
def noNotices : NoticeSet := ⟨false, false, false, false, false, false, false, false, false⟩

/-- The same value for every kind. -/
def everyKind {α : Type} (a : α) : PerKind α := ⟨a, a, a, a, a, a⟩

/-- The default unit after power-on (Table 1.8); its mark is not stored and stands as 0 (R19, R20). -/
def powerOnDefaultUnit : UnitDesc :=
  { mark := 0, kind := .trailer, length := 136, mass := 300, height := 410, rank := 1, hazard := none, reefer := false }

/-- An engine strapped so, right after power-on: R3, R4, R21 (Table 1.10), R22, R29, R35, R38, R79, R86, R106, R111, R140,
R149, R156, R161, R173, Table 10.1, R183, R186. The pass-through frames waiting on the outputs are gone too (log 28). -/
def powerOnState (role : Role) (position : Pos) : State :=
  { pending := [], inReset := false, role := role, position := position
    rangeBase := 0, lanes := [], decks := [], sections := [], segregation := []
    limits := { hLim := 1, tMin := -1, tMax := 1 }
    policy := { wH := 4, wF := 2, wO := 3, pEmpty := 96, offerTimeout := 20, resTimeout := 600 }
    gaps := everyKind 5, defaultUnit := powerOnDefaultUnit
    records := [], departures := [], offers := [], reservations := [], trials := []
    chainSeq := 0, holds := []
    voyage := .setup, pendingClear := false, stowClock := 0, heelOffset := 0, trimOffset := 0
    reportSerial := 0, reportState := .idle, reportTimer := none, report := none, emitting := false, buffer := []
    heldToken := none
    log := [], nextExc := 0, notices := noNotices, enables := noNotices, armed := true
    rxFwd := [], rxRet := [], origFwd := [], origRet := [], passFwd := [], passRet := []
    lastFwd := .originated, lastRet := .originated, drivenFwd := none, drivenRet := none }

/-- The machine right after reset: power-on contents, strapped SOLE at position 0 (DESIGN CHOICE, log 2). -/
def State.reset : State := powerOnState .sole 0

end Sys2Proof.Machine
end

