-- ==== Sys2Proof/Machine/Table.lean ====
section
/-! DEFINITION. Tables keyed by a number, kept with strictly rising keys: the unit table, the deck table, the section table
and the segregation matrix are tables of this form. -/

namespace Sys2Proof.Machine

/-- The value at a key. -/
def Table.find {α : Type} : List (Nat × α) → Nat → Option α
  | [], _ => none
  | (k, v) :: t, key => if k = key then some v else Table.find t key

/-- Put a value at a key, in its place. -/
def Table.put {α : Type} (key : Nat) (a : α) : List (Nat × α) → List (Nat × α)
  | [] => [(key, a)]
  | (k, v) :: t =>
    if key < k then (key, a) :: (k, v) :: t
    else if key = k then (key, a) :: t
    else (k, v) :: Table.put key a t

/-- Take a key out. -/
def Table.drop {α : Type} (key : Nat) (t : List (Nat × α)) : List (Nat × α) :=
  t.filter fun e => e.1 != key

/-- Keys strictly rising from above `lo` on. -/
def Table.risingFrom {α : Type} (lo : Nat) : List (Nat × α) → Bool
  | [] => true
  | (k, _) :: t => decide (lo ≤ k) && Table.risingFrom (k + 1) t

/-- The canonical form: keys strictly rising. -/
def Table.rising {α : Type} (t : List (Nat × α)) : Bool := Table.risingFrom 0 t

/-- The least number from `n` on that is no key, the keys rising. -/
def Table.firstGap {α : Type} (n : Nat) : List (Nat × α) → Nat
  | [] => n
  | (k, _) :: t => if k = n then Table.firstGap (n + 1) t else n

end Sys2Proof.Machine
end

