-- ==== Sys2Proof/Machine/Operands.lean ====
section
/-! DEFINITION. Operands: the straps, the unit description in long and short form (R190) with the faults R78 lists, and the
small conversions between the named values of frames. -/

namespace Sys2Proof.Machine

/-! ## Straps -/

/-- ROLE1, ROLE0: 00 SOLE, 01 HEAD, 10 MID, 11 TAIL (Table 11.8). -/
def roleOfStraps (straps : BitVec 2) : Role :=
  match straps.toNat with
  | 0 => .sole
  | 1 => .head
  | 2 => .mid
  | _ => .tail

/-! ## One value per kind -/

/-- The value for a kind. -/
def perKind {α : Type} (p : PerKind α) : UnitKind → α
  | .car => p.car
  | .van => p.van
  | .truck => p.truck
  | .artic => p.artic
  | .trailer => p.trailer
  | .project => p.project

/-- Kind codes 0..5 (Table 11.3); 6 and 7 name no kind. -/
def kindOfCode (code : BitVec 3) : Option UnitKind :=
  match code.toNat with
  | 0 => some .car
  | 1 => some .van
  | 2 => some .truck
  | 3 => some .artic
  | 4 => some .trailer
  | 5 => some .project
  | _ => none

/-- The code of a kind (Table 11.3). -/
def codeOfKind : UnitKind → BitVec 3
  | .car => 0
  | .van => 1
  | .truck => 2
  | .artic => 3
  | .trailer => 4
  | .project => 5

/-! ## Unit descriptions (R190) -/

/-- The kind code a description carries. -/
def descKindCode : Desc → BitVec 3
  | .long k _ _ _ _ _ _ _ => k
  | .short k _ _ _ _ _ => k

/-- The unit mark inside a description. -/
def descMark : Desc → Mark
  | .long _ _ _ m _ _ _ _ => m
  | .short _ _ m _ _ _ => m

/-- Length in dm: a byte, or 20 + 2 × code. -/
def descLength : Desc → Nat
  | .long _ _ _ _ l _ _ _ => l.toNat
  | .short _ _ _ l _ _ => 20 + 2 * l.toNat

/-- Mass in 0.1 t: a word, or 5 × (code + 1). -/
def descMass : Desc → Nat
  | .long _ _ _ _ _ m _ _ => m.toNat
  | .short _ _ _ _ m _ => 5 * (m.toNat + 1)

/-- Height in cm: a word, or 150 + 25 × code. -/
def descHeight : Desc → Nat
  | .long _ _ _ _ _ _ h _ => h.toNat
  | .short _ _ _ _ _ h => 150 + 25 * h.toNat

/-- Rank 1..8, carried as rank − 1. -/
def descRank : Desc → Nat
  | .long _ _ r _ _ _ _ _ => r.toNat + 1
  | .short _ r _ _ _ _ => r.toNat + 1

/-- Hazard class; 0 is absent, and a short form has none. -/
def descHazard : Desc → Option Nat
  | .long _ _ _ _ _ _ _ z => if z.toNat = 0 then none else some z.toNat
  | .short _ _ _ _ _ _ => none

/-- Reefer; a short form is none. -/
def descReefer : Desc → Bool
  | .long _ r _ _ _ _ _ _ => r
  | .short _ _ _ _ _ _ => false

/-- The description is in long form. -/
def descIsLong : Desc → Bool
  | .long _ _ _ _ _ _ _ _ => true
  | .short _ _ _ _ _ _ => false

/-- The kind named is one the form may name: one of the six, and CAR or VAN alone in short form (R78). -/
def descKind (d : Desc) : Option UnitKind :=
  if descIsLong d then kindOfCode (descKindCode d)
  else match kindOfCode (descKindCode d) with
    | some .car => some .car
    | some .van => some .van
    | _ => none

/-- The faults R78 lists. A height above 600 is none of them. -/
def descFaulty (d : Desc) : Bool :=
  (descKind d).isNone
    || decide (descMass d < 5) || decide (1200 < descMass d)
    || decide (descLength d < 20) || decide (250 < descLength d)
    || decide (descHeight d < 100)
    || decide (descRank d < 1) || decide (8 < descRank d)
    || (match descHazard d with
        | none => false
        | some z => decide (15 < z))

/-- A height above 600 (R78, R80, R71). -/
def descTall (d : Desc) : Bool := decide (600 < descHeight d)

/-- The unit a description gives where it has none of the faults of R78, its height clamped to 600 (R78, R127). -/
def descUnit (d : Desc) : Option UnitDesc :=
  if descFaulty d then none
  else (descKind d).map fun k =>
    { mark := descMark d, kind := k, length := descLength d, mass := descMass d, height := min (descHeight d) 600
      rank := descRank d, hazard := descHazard d, reefer := descReefer d }

/-- The unit of a description that EVALUATE, TRIAL and WRITE DEFAULT UNIT accept: a height above 600 is refused, not
clamped (R71, R112, R19). -/
def descExactUnit (d : Desc) : Option UnitDesc := if descTall d then none else descUnit d

/-- The HEAD's rewrite of a long-form height above 600 (R78). -/
def descClamp : Desc → Desc
  | .long k r n m l w h z => .long k r n m l w (if 600 < h.toNat then 600#16 else h) z
  | .short k n m l w h => .short k n m l w h

/-- The same description in long form, as the hold list and a retry carry it (R106, R107). -/
def descToLong : Desc → Desc
  | .long k r n m l w h z => .long k r n m l w h z
  | .short k n m l w h =>
    .long k false n m (BitVec.ofNat 8 (20 + 2 * l.toNat)) (BitVec.ofNat 16 (5 * (w.toNat + 1)))
      (BitVec.ofNat 16 (150 + 25 * h.toNat)) 0

/-- A held description in long form, under a given mark (R20, DEFAULT UNIT). -/
def descOfUnit (u : UnitDesc) (mark : Mark) : Desc :=
  .long (codeOfKind u.kind) u.reefer (BitVec.ofNat 3 (u.rank - 1)) mark (BitVec.ofNat 8 u.length)
    (BitVec.ofNat 16 u.mass) (BitVec.ofNat 16 u.height) (BitVec.ofNat 8 (u.hazard.getD 0))

/-! ## Named values of frames -/

/-- A record state as a holder state (R24). -/
def holderState : RecState → Option HolderState
  | .offered => some .offered
  | .reserved => some .reserved
  | .aboard => some .aboard
  | _ => none

/-- A record holds its mark in OFFERED, RESERVED or ABOARD (R24). -/
def isHolder (st : RecState) : Bool := (holderState st).isSome

/-- A live record's states (section 2.1 of chapter 2). -/
def isLive : RecState → Bool
  | .offered | .trial | .reserved | .aboard => true
  | .free | .left => false

/-- A segregation code by its number (Table 1.5). -/
def segOfCode : Nat → Option SegCode
  | 0 => some .none
  | 1 => some .notNeighbour
  | 2 => some .notSameLane
  | 3 => some .laneApart
  | 4 => some .deckApart
  | _ => none

/-- The number of a segregation code (Table 1.5). -/
def codeOfSeg : SegCode → Nat
  | .none => 0
  | .notNeighbour => 1
  | .notSameLane => 2
  | .laneApart => 3
  | .deckApart => 4

/-- The number of a check (Table 3.2). -/
def checkNumber : Check → Nat
  | .kind => 1 | .closed => 2 | .held => 3 | .suspect => 4 | .count => 5 | .height => 6 | .unitMass => 7 | .length => 8
  | .laneMass => 9 | .deckMass => 10 | .plug => 11 | .order => 12 | .hazard => 13 | .heel => 14 | .trim => 15

/-- All fifteen checks in number order. -/
def allChecks : List Check :=
  [.kind, .closed, .held, .suspect, .count, .height, .unitMass, .length, .laneMass, .deckMass, .plug, .order, .hazard, .heel,
    .trim]

/-- The forced checks 1, 2, 6 to 11, 13, 14 and 15 (R70). -/
def forcedChecks : List Check :=
  [.kind, .closed, .height, .unitMass, .length, .laneMass, .deckMass, .plug, .hazard, .heel, .trim]

/-- The criterion a REPORT request names, where it is one of the four and a rank lies in 1..8 (R165). -/
def criterionOf : CriterionField → Option Criterion
  | .aboard => some .aboard
  | .plan => some .plan
  | .changed => some .changed
  | .rank n => if 1 ≤ n ∧ n ≤ 8 then some (.rank n) else none
  | .other _ => none

/-- An optional value lies in a range, an absent one always (R2). -/
def natIn (lo hi : Nat) : Option Nat → Bool
  | none => true
  | some n => decide (lo ≤ n) && decide (n ≤ hi)

/-- An optional signed value lies in a range, an absent one always (R2). -/
def intIn (lo hi : Int) : Option Int → Bool
  | none => true
  | some n => decide (lo ≤ n) && decide (n ≤ hi)

/-- The value of a field after a write that may leave it absent. -/
def written {α : Type} (carried : Option α) (held : α) : α := carried.getD held

end Sys2Proof.Machine
end

