-- ==== Sys2Proof/Machine/Flags.lean ====
section
/-! DEFINITION. The nine notice flags: setting, clearing, the ATTENTION test (R178, R179), and the limit tests that set
STABILITY_OUT (R16). -/

namespace Sys2Proof.Machine

/-- A set of flags with one more set (R178: setting a set flag leaves it set). -/
def noticeSet (n : NoticeSet) : Notice → NoticeSet
  | .logged => { n with logged := true }
  | .logFull => { n with logFull := true }
  | .stabilityOut => { n with stabilityOut := true }
  | .lapsed => { n with lapsed := true }
  | .hoistFault => { n with hoistFault := true }
  | .recordsLow => { n with recordsLow := true }
  | .linkError => { n with linkError := true }
  | .suspectLane => { n with suspectLane := true }
  | .holdOverflow => { n with holdOverflow := true }

/-- Flag by flag, set in both. -/
def noticeAnd (a b : NoticeSet) : NoticeSet :=
  { logged := a.logged && b.logged, logFull := a.logFull && b.logFull, stabilityOut := a.stabilityOut && b.stabilityOut
    lapsed := a.lapsed && b.lapsed, hoistFault := a.hoistFault && b.hoistFault, recordsLow := a.recordsLow && b.recordsLow
    linkError := a.linkError && b.linkError, suspectLane := a.suspectLane && b.suspectLane
    holdOverflow := a.holdOverflow && b.holdOverflow }

/-- The flags of the first set that the second does not hold. -/
def noticeMinus (a b : NoticeSet) : NoticeSet :=
  { logged := a.logged && !b.logged, logFull := a.logFull && !b.logFull, stabilityOut := a.stabilityOut && !b.stabilityOut
    lapsed := a.lapsed && !b.lapsed, hoistFault := a.hoistFault && !b.hoistFault, recordsLow := a.recordsLow && !b.recordsLow
    linkError := a.linkError && !b.linkError, suspectLane := a.suspectLane && !b.suspectLane
    holdOverflow := a.holdOverflow && !b.holdOverflow }

/-- Some flag is set. -/
def noticeAny (n : NoticeSet) : Bool :=
  n.logged || n.logFull || n.stabilityOut || n.lapsed || n.hoistFault || n.recordsLow || n.linkError || n.suspectLane
    || n.holdOverflow

/-- The projected heel is out of limits (R16). -/
def heelOut (l : Limits) (h : Int) : Bool := decide (l.hLim < (h.natAbs : Int))

/-- The projected trim is out of limits (R16). -/
def trimOut (l : Limits) (t : Int) : Bool := decide (t < l.tMin) || decide (l.tMax < t)

/-- The distance of a trim figure outside the band (R63). -/
def trimDist (l : Limits) (t : Int) : Int :=
  if t < l.tMin then l.tMin - t else if l.tMax < t then t - l.tMax else 0

end Sys2Proof.Machine
end

