-- ==== Sys2Proof/Machine/Ops.lean ====
section
/-! DEFINITION. The named operations over the state that every command shares: the unit table and its allocation, lanes and
their figures, the four Stow Map operations, the reservation list, exceptions and notices, and the four ports. -/

namespace Sys2Proof.Machine

/-! ## Records (section 2.1 of chapter 2) -/

/-- A FREE record: its state and four false flags, no other field (R22). -/
def freeRecord : UnitRec :=
  { state := .free, desc := none, lane := none, offset := none, centre := none, sequence := none, deadline := none
    aboardTime := none, departureTime := none, forced := false, defaulted := false, cancelPending := false, changed := false }

/-- The record at a handle. -/
def getRec (s : State) (h : Handle) : UnitRec := (Table.find s.records h).getD freeRecord

/-- Write the record at a handle; a FREE record is not listed. -/
def setRec (s : State) (h : Handle) (r : UnitRec) : State :=
  { s with records := if r = freeRecord then Table.drop h s.records else Table.put h r s.records }

/-- A record's length, 0 where it has no description. -/
def recLength (r : UnitRec) : Nat := (r.desc.map UnitDesc.length).getD 0
/-- A record's mass, 0 where it has no description. -/
def recMass (r : UnitRec) : Nat := (r.desc.map UnitDesc.mass).getD 0
/-- A record's height, 0 where it has no description. -/
def recHeight (r : UnitRec) : Nat := (r.desc.map UnitDesc.height).getD 0
/-- A record's rank, 0 where it has no description. -/
def recRank (r : UnitRec) : Nat := (r.desc.map UnitDesc.rank).getD 0
/-- A record's mark, 0 where it has no description. -/
def recMark (r : UnitRec) : Mark := (r.desc.map UnitDesc.mark).getD 0
/-- A record's kind, CAR where it has no description. -/
def recKind (r : UnitRec) : UnitKind := (r.desc.map UnitDesc.kind).getD .car
/-- A record's hazard class. -/
def recHazard (r : UnitRec) : Option Nat := r.desc.bind UnitDesc.hazard
/-- A record is a reefer. -/
def recReefer (r : UnitRec) : Bool := (r.desc.map UnitDesc.reefer).getD false
/-- A record's offset, 0 while it has none. -/
def recOffset (r : UnitRec) : Nat := r.offset.getD 0
/-- A listed record's aft end (R33). -/
def recAft (r : UnitRec) : Nat := recOffset r + recLength r
/-- A listed record's lane, 0 while it has none. -/
def recLane (r : UnitRec) : Lane := r.lane.getD 0
/-- A record holds a mark. -/
def recHasMark (m : Mark) (r : UnitRec) : Bool := r.desc.map UnitDesc.mark == some m

/-- Live records (Table 2.1). -/
def liveCount (s : State) : Nat := s.records.countP fun e => isLive e.2.state

/-- Records in one state, FREE apart. -/
def countState (s : State) (st : RecState) : Nat := s.records.countP fun e => e.2.state == st

/-- The holder of a mark: the record in OFFERED, RESERVED or ABOARD with it (R24). -/
def findHolder (s : State) (m : Mark) : Option Handle :=
  (s.records.find? fun e => isHolder e.2.state && recHasMark m e.2).map Prod.fst

/-- The TRIAL record with a mark. -/
def findTrial (s : State) (m : Mark) : Option Handle :=
  (s.records.find? fun e => e.2.state == .trial && recHasMark m e.2).map Prod.fst

/-- The LEFT record with a mark that became LEFT most recently (R47). -/
def findLeft (s : State) (m : Mark) : Option Handle :=
  s.departures.reverse.find? fun h => (getRec s h).state == .left && recHasMark m (getRec s h)

/-! ## Notices and exceptions (chapter 10) -/

/-- Set a notice flag. -/
def raiseNotice (s : State) (n : Notice) : State := { s with notices := noticeSet s.notices n }

/-- Post an exception (R175, R176): appended with the next sequence number and the stow clock, LOGGED set; or dropped with
LOG_FULL where the log holds 32. -/
def post (s : State) (kind : ExcKind) (mark : Option Mark) (lane : Option Lane) (second : Option Mark)
    (detail : Option ExcDetail) : State :=
  if s.log.length < Config.logCapacity then
    { s with
      log := s.log ++ [{ sequence := s.nextExc, clock := s.stowClock, kind := kind, mark := mark, lane := lane
                         second := second, detail := detail }]
      nextExc := s.nextExc + 1
      notices := noticeSet s.notices .logged }
  else { s with notices := noticeSet s.notices .logFull }

/-! ## Ports (chapter 11) -/

/-- Originate a frame on forward out (R186). -/
def emitFwd (s : State) (f : Frame) : State := { s with origFwd := s.origFwd ++ [f] }

/-- Originate a frame on return out (R186). -/
def emitRet (s : State) (f : Frame) : State := { s with origRet := s.origRet ++ [f] }

/-- Pass a frame down the forward path (R185). -/
def passDown (s : State) (f : Frame) : State := { s with passFwd := s.passFwd ++ [f] }

/-- Pass a frame up the return path (R185). -/
def passUp (s : State) (f : Frame) : State := { s with passRet := s.passRet ++ [f] }

/-- The receive queue of an input port. -/
def rxQueue (s : State) : InPort → List Frame
  | .fwd => s.rxFwd
  | .ret => s.rxRet

/-- Replace the receive queue of an input port. -/
def setRxQueue (s : State) (q : List Frame) : InPort → State
  | .fwd => { s with rxFwd := q }
  | .ret => { s with rxRet := q }

/-- A TAIL's or SOLE's return input is connected to nothing (chapter 11). -/
def unconnected (s : State) (p : InPort) : Bool :=
  match p, s.role with
  | .ret, .tail => true
  | .ret, .sole => true
  | _, _ => false

/-- A frame that has passed the tests of R184 joins the receive queue, or is lost in a full one with LINK_ERROR (R183). -/
def arrive (s : State) (p : InPort) (f : Frame) : State :=
  if unconnected s p then s
  else if (rxQueue s p).length < Config.rxCapacity then setRxQueue s (rxQueue s p ++ [f]) p
  else raiseNotice s .linkError

/-- The engine takes frames from its receive queues: both originated queues hold fewer than 32 (R186). -/
def intakeOpen (s : State) : Bool :=
  decide (s.origFwd.length < Config.intakeLimit) && decide (s.origRet.length < Config.intakeLimit)

/-- Emit ATTENTION and clear armed (R179). -/
def emitAttention (s : State) : State :=
  { emitRet s (.attention s.position s.notices s.log.length s.nextExc) with armed := false }

/-- The end of an event (R179): one ATTENTION where a flag that the event set has its enable set while armed is set. A flag
is "set by the event" when it was clear before it; a flag already set and enabled cannot stand beside armed (log 14). -/
def endEvent (before after : State) : State :=
  if after.armed && noticeAny (noticeAnd (noticeMinus after.notices before.notices) after.enables) then emitAttention after
  else after

/-- The engine takes frame `f` from input `p` and acts on it. If `f` does not stand at the head of the port's queue, it first
completes on the port. It is taken when it is then first in line, intake is open (R186) and the row's own condition holds;
otherwise it waits in the queue. In reset nothing happens (R192; log 8). -/
def takeFrame (p : InPort) (f : Frame) (mine : State → Bool) (act : State → State) (s : State) : State :=
  if s.inReset then s
  else
    let w := if (rxQueue s p).head? = some f then s else arrive s p f
    endEvent s
      (if intakeOpen w && decide ((rxQueue w p).head? = some f) && mine w then act (setRxQueue w (rxQueue w p).tail p) else w)

/-! ## Lanes and their figures (chapter 2) -/

/-- The lane lies in the engine's range (R3). -/
def inRange (s : State) (l : Lane) : Bool := decide (s.rangeBase ≤ l) && decide (l < s.rangeBase + s.lanes.length)

/-- The slot of a lane of the range. -/
def slotOf (s : State) (l : Lane) : Option LaneSlot := if s.rangeBase ≤ l then s.lanes[l - s.rangeBase]? else none

/-- The entry of a defined lane of the range. -/
def entryOf (s : State) (l : Lane) : Option LaneEntry := (slotOf s l).bind LaneSlot.entry

/-- The occupant list of a lane. -/
def occupantsOf (s : State) (l : Lane) : List Handle := ((slotOf s l).map LaneSlot.occupants).getD []

/-- Change the slot of a lane of the range. -/
def modifySlot (s : State) (l : Lane) (f : LaneSlot → LaneSlot) : State :=
  if s.rangeBase ≤ l then { s with lanes := s.lanes.modify (l - s.rangeBase) f } else s

/-- Replace the occupant list of a lane. -/
def setOccupants (s : State) (l : Lane) (o : List Handle) : State := modifySlot s l fun x => { x with occupants := o }

/-- Set the SUSPECT flag of a lane (R35). -/
def setSuspect (s : State) (l : Lane) (b : Bool) : State := modifySlot s l fun x => { x with suspect := b }

/-- The lanes of the range in ascending number, each with its slot. -/
def laneSlots (s : State) : List (Lane × LaneSlot) := s.lanes.zipIdx.map fun e => (s.rangeBase + e.2, e.1)

/-- The defined lanes of the range in ascending number (R51). -/
def definedLanes (s : State) : List (Lane × LaneEntry) := (laneSlots s).filterMap fun e => e.2.entry.map fun x => (e.1, x)

/-- The record is ABOARD. -/
def isAboard (s : State) (h : Handle) : Bool := (getRec s h).state == .aboard

/-- The ABOARD part of a list of occupants (R29). -/
def aboardPart (s : State) (o : List Handle) : List Handle := o.filter (isAboard s)

/-- The pending part of a list of occupants (R29). -/
def pendingPart (s : State) (o : List Handle) : List Handle := o.filter fun h => !isAboard s h

/-- The aft end of the last of some occupants, absent where there is none. -/
def aftOf (s : State) (o : List Handle) : Option Nat := o.getLast?.map fun h => recAft (getRec s h)

/-- Sum of a figure over a list of occupants. -/
def sumNat (f : Handle → Nat) (o : List Handle) : Nat := (o.map f).sum

/-- Sum of a signed figure over a list of occupants. -/
def sumInt (f : Handle → Int) (o : List Handle) : Int := (o.map f).sum

/-- Projected fill (R33). -/
def projFill (s : State) (l : Lane) : Nat := (aftOf s (occupantsOf s l)).getD 0
/-- Committed fill (R33). -/
def commFill (s : State) (l : Lane) : Nat := (aftOf s (aboardPart s (occupantsOf s l))).getD 0
/-- Projected lane mass (Table 2.3). -/
def projMass (s : State) (l : Lane) : Nat := sumNat (fun h => recMass (getRec s h)) (occupantsOf s l)
/-- Committed lane mass (Table 2.3). -/
def commMass (s : State) (l : Lane) : Nat := sumNat (fun h => recMass (getRec s h)) (aboardPart s (occupantsOf s l))
/-- Plugs used (Table 2.3). -/
def plugsUsed (s : State) (l : Lane) : Nat := (occupantsOf s l).countP fun h => recReefer (getRec s h)
/-- Tail rank (Table 2.3). -/
def tailRank (s : State) (l : Lane) : Option Nat := (occupantsOf s l).getLast?.map fun h => recRank (getRec s h)

/-- The deck of a defined lane. -/
def deckOf (s : State) (l : Lane) : Option Nat := (entryOf s l).map LaneEntry.deck

/-- Projected deck mass (R36). -/
def projDeckMass (s : State) (deck : Nat) : Nat :=
  ((definedLanes s).map fun e => if e.2.deck = deck then projMass s e.1 else 0).sum
/-- Committed deck mass (R36). -/
def commDeckMass (s : State) (deck : Nat) : Nat :=
  ((definedLanes s).map fun e => if e.2.deck = deck then commMass s e.1 else 0).sum

/-- Heel contribution of an occupant of a lane with this transverse arm (R37). -/
def heelPart (s : State) (arm : Int) (h : Handle) : Int := (recMass (getRec s h) : Int) * arm
/-- Trim contribution of an occupant (R37). -/
def trimPart (s : State) (h : Handle) : Int := (recMass (getRec s h) : Int) * (getRec s h).centre.getD 0

/-- Projected heel (R38). -/
def projHeel (s : State) : Int :=
  s.heelOffset + ((definedLanes s).map fun e => sumInt (heelPart s e.2.arm) (occupantsOf s e.1)).sum
/-- Projected trim (R38). -/
def projTrim (s : State) : Int := s.trimOffset + ((definedLanes s).map fun e => sumInt (trimPart s) (occupantsOf s e.1)).sum
/-- Committed heel (R38). -/
def commHeel (s : State) : Int :=
  s.heelOffset + ((definedLanes s).map fun e => sumInt (heelPart s e.2.arm) (aboardPart s (occupantsOf s e.1))).sum
/-- Committed trim (R38). -/
def commTrim (s : State) : Int :=
  s.trimOffset + ((definedLanes s).map fun e => sumInt (trimPart s) (aboardPart s (occupantsOf s e.1))).sum

/-- Set STABILITY_OUT if the projected heel or trim is out of limits; leave it otherwise (R16, R120, R162). -/
def testStability (s : State) : State :=
  if heelOut s.limits (projHeel s) || trimOut s.limits (projTrim s) then raiseNotice s .stabilityOut else s

/-- Records are listed only in defined lanes whose deck has an entry (R29). -/
def listable (s : State) (l : Lane) : Bool :=
  match deckOf s l with
  | none => false
  | some d => (Table.find s.decks d).isSome

/-- A listing operation on the lane would be taken (R29, R39, R40). -/
def hasRoom (s : State) (l : Lane) : Bool := listable s l && decide ((occupantsOf s l).length < Config.laneCapacity)

/-! ## Offsets and compaction (R30, R32, R37) -/

/-- The offset of a unit of this kind behind an aft end, or at the forward stop (R30). -/
def offsetBehind (s : State) (aft : Option Nat) (k : UnitKind) : Nat :=
  match aft with
  | none => 0
  | some a => a + perKind s.gaps k

/-- Centre arm: F − offset − ⌈length/2⌉, clamped to −1500..+1500 (R37). -/
def centreArm (stopArm : Int) (offset length : Nat) : Int :=
  max (-1500) (min 1500 (stopArm - (offset : Int) - (((length + 1) / 2 : Nat) : Int)))

/-- The forward-stop arm of a lane. -/
def stopArmOf (s : State) (l : Lane) : Int := ((entryOf s l).map LaneEntry.stopArm).getD 0

/-- A record at a new offset: its centre arm recomputed and CHANGED set where the offset changes (R28, R32). -/
def reoffset (stopArm : Int) (r : UnitRec) (offset : Nat) : UnitRec :=
  if r.offset = some offset then r
  else { r with offset := some offset, centre := some (centreArm stopArm offset (recLength r)), changed := true }

/-- Pack occupants one behind another from an aft end on (R32). -/
def packFrom (stopArm : Int) (aft : Option Nat) : List Handle → State → State
  | [], s => s
  | h :: t, s =>
    let r := reoffset stopArm (getRec s h) (offsetBehind s aft (recKind (getRec s h)))
    packFrom stopArm (some (recAft r)) t (setRec s h r)

/-- Compaction of a lane's pending part (R32). -/
def compact (s : State) (l : Lane) : State :=
  packFrom (stopArmOf s l) (aftOf s (aboardPart s (occupantsOf s l))) (pendingPart s (occupantsOf s l)) s

/-! ## The four Stow Map operations (section 2.5 of chapter 2) -/

/-- List at tail (R39): the pending record `h` becomes the last occupant of lane `l`. Refused, with nothing changed, where
the lane has no room or is not listable. -/
def listAtTail (s : State) (h : Handle) (l : Lane) : State :=
  if hasRoom s l then
    let r := getRec s h
    let offset := offsetBehind s (aftOf s (occupantsOf s l)) (recKind r)
    setOccupants
      (setRec s h { r with lane := some l, offset := some offset
                           centre := some (centreArm (stopArmOf s l) offset (recLength r)), changed := true })
      l (occupantsOf s l ++ [h])
  else s

/-- A record as it stands ABOARD: its fixed offset and centre arm, its aboard time, and none of the fields ABOARD does not
carry (R22, R31). -/
def aboardRecord (r : UnitRec) (l : Lane) (offset : Nat) (stopArm : Int) (now : Tick) : UnitRec :=
  { r with state := .aboard, lane := some l, offset := some offset
           centre := some (centreArm stopArm offset (recLength r)), sequence := none, deadline := none
           aboardTime := some now, cancelPending := false, changed := true }

/-- The record `h`, not listed in lane `l`, is placed directly behind the last ABOARD occupant and the pending part is
compacted behind it (R40, R41). -/
def placeAboard (s : State) (h : Handle) (l : Lane) : State :=
  let ab := aboardPart s (occupantsOf s l)
  let r := getRec s h
  let s1 := setRec s h (aboardRecord r l (offsetBehind s (aftOf s ab) (recKind r)) (stopArmOf s l) s.stowClock)
  compact (setOccupants s1 l (ab ++ [h] ++ pendingPart s (occupantsOf s l))) l

/-- List behind last aboard (R40): refused, with nothing changed, where the lane has no room or is not listable. -/
def listBehindAboard (s : State) (h : Handle) (l : Lane) : State := if hasRoom s l then placeAboard s h l else s

/-- Promote a pending occupant of lane `l` (R41). -/
def promote (s : State) (h : Handle) (l : Lane) : State :=
  placeAboard (setOccupants s l ((occupantsOf s l).filter (· != h))) h l

/-- Unlist a listed record (R42): it leaves its lane's list, its offset and centre arm are removed, its lane field is kept,
and the pending part is compacted. -/
def unlist (s : State) (h : Handle) : State :=
  match (getRec s h).lane with
  | none => s
  | some l =>
    let s1 := setRec s h { getRec s h with offset := none, centre := none }
    compact (setOccupants s1 l ((occupantsOf s1 l).filter (· != h))) l

/-- Free a record (R23): a live record is unlisted first; a LEFT record leaves the order of departure. -/
def freeRec (s : State) (h : Handle) : State :=
  let s1 := if isLive (getRec s h).state then unlist s h else s
  { setRec s1 h freeRecord with departures := s1.departures.filter (· != h) }

/-- Free records one after another. -/
def freeAll : List Handle → State → State
  | [], s => s
  | h :: t, s => freeAll t (freeRec s h)

/-- An ABOARD record is unlisted and made LEFT (R125, R126, R132): lane and aboard time kept, departure time set, CHANGED
set, last in the order of departure. -/
def makeLeft (s : State) (h : Handle) : State :=
  let s1 := unlist s h
  let s2 := setRec s1 h { getRec s1 h with state := .left, departureTime := some s.stowClock, changed := true }
  { s2 with departures := s2.departures ++ [h] }

/-- ABOARD occupants stand aft of this one in its lane (R133). -/
def aboardAft (s : State) (h : Handle) : Bool :=
  match (getRec s h).lane with
  | none => false
  | some l => ((aboardPart s (occupantsOf s l)).dropWhile (· != h)).tail != []

/-! ## Allocation (R25, R26, R27) -/

/-- General allocation is available (R25). -/
def generalAvailable (s : State) : Bool := decide (liveCount s < Config.generalLimit)

/-- Forced allocation is available (R26). -/
def forcedAvailable (s : State) : Bool := decide (liveCount s < Config.unitRecords)

/-- The FREE record with the lowest handle. -/
def firstFree (s : State) : Option Handle :=
  if Table.firstGap 0 s.records < Config.unitRecords then some (Table.firstGap 0 s.records) else none

/-- The choice of R27: the lowest FREE record, or else the LEFT record that became LEFT earliest, reclaimed with
RECORDS_LOW. -/
def allocate (s : State) : Option (Handle × State) :=
  match firstFree s with
  | some h => some (h, s)
  | none =>
    match s.departures with
    | [] => none
    | h :: t => some (h, raiseNotice { setRec s h freeRecord with departures := t } .recordsLow)

/-- A new record with its description, its state and false flags, CHANGED apart (R22, R28). -/
def newRecord (u : UnitDesc) (st : RecState) : UnitRec := { freeRecord with state := st, desc := some u, changed := true }

/-! ## The reservation list (R97, R98) -/

/-- A reservation's count: ten ticks to each second of the reservation timeout (R98). -/
def reservationTicks (s : State) : Nat := 10 * s.policy.resTimeout

/-- The list with a member put in behind every member whose deadline is no later (R97). -/
def joinBehind (s : State) (h : Handle) (deadline : Nat) (l : List Handle) : List Handle :=
  let early := l.takeWhile fun g => decide ((getRec s g).deadline.getD 0 ≤ deadline)
  early ++ [h] ++ l.drop early.length

/-- Record `h`, already RESERVED, takes a full deadline and its place in the reservation list (R98). -/
def joinReservations (s : State) (h : Handle) : State :=
  let l := s.reservations.filter (· != h)
  { setRec s h { getRec s h with deadline := some (reservationTicks s) } with
    reservations := joinBehind s h (reservationTicks s) l }

/-- A listed pending record becomes RESERVED in place (R44), with its deadline and its place in the list (R98). -/
def makeReserved (s : State) (h : Handle) : State :=
  joinReservations (setRec s h { getRec s h with state := .reserved, changed := true }) h

/-! ## Hoist figures (R138) -/

/-- A section holds a lane (Table 7.2). -/
def sectionHolds (e : SectionEntry) (l : Lane) : Bool :=
  (e.hoist.contains l && e.state != .deployed)
    || (e.covered.contains l && (e.state == .deploying || e.state == .stowing || e.state == .fault))

/-- The ids of the sections that hold a lane, ascending (R120, R138). -/
def holders (s : State) (l : Lane) : List Nat := (s.sections.filter fun e => sectionHolds e.2 l).map Prod.fst

/-- The lane is hoist-held (R138). -/
def hoistHeld (s : State) (l : Lane) : Bool := holders s l != []

/-- The reduced clearances in force over a lane (R55, R138). -/
def reductions (s : State) (l : Lane) : List Nat :=
  (s.sections.filter fun e => e.2.covered.contains l && e.2.state != .stowed).map fun e => e.2.reduced

/-- The effective clearance of a lane whose own clearance is given (R55, R138). -/
def effectiveClearance (s : State) (l : Lane) (own : Nat) : Nat := (reductions s l).foldl min own

/-- The lane is a hoist lane of a defined section that is not DEPLOYED (R114, R139). -/
def hoistLaneUp (s : State) (l : Lane) : Bool := s.sections.any fun e => e.2.hoist.contains l && e.2.state != .deployed

/-- Section `id` in a new hoist state, with its timer. -/
def setSection (s : State) (id : Nat) (e : SectionEntry) : State := { s with sections := Table.put id e s.sections }

/-! ## The segregation matrix (R14) -/

/-- The key of an entry. -/
def segKey (c d : Nat) : Nat := 16 * c + d

/-- The entry for (c, d). -/
def segGet (s : State) (c d : Nat) : SegCode := (Table.find s.segregation (segKey c d)).getD .none

/-- One entry written; NONE is not listed. -/
def segPut (key : Nat) (code : SegCode) (t : List (Nat × SegCode)) : List (Nat × SegCode) :=
  if code = .none then Table.drop key t else Table.put key code t

end Sys2Proof.Machine
end

