-- ==== Sys2Proof/Machine/Evaluate.lean ====
section
/-! DEFINITION. The Placement Evaluator (chapter 3): the two placement positions, the fifteen checks, the score and the best
lane. It reads the state and writes none of it (R50). -/

namespace Sys2Proof.Machine

/-- The figures of a placement position (R52, R53): offset, fill after, centre arm, moments after, and the unit's immediate
neighbours in the lane. -/
structure Placement where
  offset : Nat
  fillAfter : Nat
  centre : Int
  hAfter : Int
  tAfter : Int
  fore : Option Handle
  aft : Option Handle
  deriving DecidableEq, Repr

/-- The tail position of a lane (R52). -/
def tailPlacement (s : State) (l : Lane) (e : LaneEntry) (u : UnitDesc) : Placement :=
  let o := occupantsOf s l
  let offset := offsetBehind s (aftOf s o) u.kind
  let c := centreArm e.stopArm offset u.length
  { offset := offset, fillAfter := offset + u.length, centre := c
    hAfter := projHeel s + (u.mass : Int) * e.arm, tAfter := projTrim s + (u.mass : Int) * c
    fore := o.getLast?, aft := none }

/-- Where packing pending occupants behind an aft end leaves the aft end and the sum of their trim contributions, nothing
being written (R53). -/
def packedFigures (s : State) (stopArm : Int) : Nat → List Handle → Nat × Int
  | aft, [] => (aft, 0)
  | aft, h :: t =>
    let r := getRec s h
    let offset := aft + perKind s.gaps (recKind r)
    let rest := packedFigures s stopArm (offset + recLength r) t
    (rest.1, (recMass r : Int) * centreArm stopArm offset (recLength r) + rest.2)

/-- The aboard position of a lane (R53). -/
def aboardPlacement (s : State) (l : Lane) (e : LaneEntry) (u : UnitDesc) : Placement :=
  let ab := aboardPart s (occupantsOf s l)
  let pend := pendingPart s (occupantsOf s l)
  let offset := offsetBehind s (aftOf s ab) u.kind
  let c := centreArm e.stopArm offset u.length
  let packed := packedFigures s e.stopArm (offset + u.length) pend
  { offset := offset, fillAfter := packed.1, centre := c
    hAfter := projHeel s + (u.mass : Int) * e.arm
    tAfter := projTrim s + (u.mass : Int) * c + (packed.2 - sumInt (trimPart s) pend)
    fore := ab.getLast?, aft := pend.head? }

/-- One occupant, listed in lane `m`, passes the segregation test its code sets (R61). -/
def segregated (l : Lane) (e : LaneEntry) (p : Placement) (m : Lane) (mDeck : Option Nat) (h : Handle) :
    SegCode → Bool
  | .none => true
  | .notNeighbour => !(m == l && (p.fore == some h || p.aft == some h))
  | .notSameLane => m != l
  | .laneApart => !(m == l || e.port == some m || e.starboard == some m)
  | .deckApart => mDeck != some e.deck

/-- HAZARD (R60): the unit against every listed occupant of the engine. -/
def hazardPasses (s : State) (l : Lane) (e : LaneEntry) (u : UnitDesc) (p : Placement) : Bool :=
  match u.hazard with
  | none => true
  | some c =>
    (laneSlots s).all fun x =>
      x.2.occupants.all fun h =>
        match recHazard (getRec s h) with
        | none => true
        | some d => segregated l e p x.1 (x.2.entry.map LaneEntry.deck) h (segGet s c d)

/-- One check of a unit against a defined lane at a placement position (R54 to R63). -/
def checkPasses (s : State) (l : Lane) (e : LaneEntry) (u : UnitDesc) (p : Placement) : Check → Bool
  | .kind => perKind e.kinds u.kind
  | .closed => e.admin == .opened
  | .held => !hoistHeld s l
  | .suspect => !((slotOf s l).map LaneSlot.suspect).getD false
  | .count => decide ((occupantsOf s l).length < Config.laneCapacity)
  | .height => decide (u.height ≤ effectiveClearance s l e.clearance)
  | .unitMass => decide (u.mass ≤ e.unitMass)
  | .length => decide (p.fillAfter ≤ e.usable)
  | .laneMass => decide (projMass s l + u.mass ≤ e.laneMass)
  | .deckMass =>
    match Table.find s.decks e.deck with
    | none => false
    | some limit => decide (projDeckMass s e.deck + u.mass ≤ limit)
  | .plug => !u.reefer || decide (plugsUsed s l < e.plugs)
  | .order =>
    match tailRank s l with
    | none => true
    | some r => decide (u.rank ≤ r)
  | .hazard => hazardPasses s l e u p
  | .heel => decide ((p.hAfter.natAbs : Int) ≤ s.limits.hLim) || decide (p.hAfter.natAbs < (projHeel s).natAbs)
  | .trim =>
    (decide (s.limits.tMin ≤ p.tAfter) && decide (p.tAfter ≤ s.limits.tMax))
      || decide (trimDist s.limits p.tAfter < trimDist s.limits (projTrim s))

/-- The set of failed checks among some, in their order (R64). -/
def failedOf (s : State) (l : Lane) (e : LaneEntry) (u : UnitDesc) (p : Placement) (checks : List Check) : List Check :=
  checks.filter fun c => !checkPasses s l e u p c

/-- The failed checks of the tail position, all fifteen (R64). -/
def tailFailures (s : State) (l : Lane) (e : LaneEntry) (u : UnitDesc) : List Check :=
  failedOf s l e u (tailPlacement s l e u) allChecks

/-- The failed forced checks at the aboard position (R70). -/
def forcedFailures (s : State) (l : Lane) (u : UnitDesc) : List Check :=
  match entryOf s l with
  | none => []
  | some e => failedOf s l e u (aboardPlacement s l e u) forcedChecks

/-- heel_term (R65). -/
def heelTerm (s : State) (p : Placement) : Nat := min 255 (p.hAfter.natAbs * 255 / s.limits.hLim.toNat)

/-- fill_term (R65). -/
def fillTerm (e : LaneEntry) (p : Placement) : Nat := (e.usable - p.fillAfter) * 255 / e.usable

/-- order_term (R65). -/
def orderTerm (s : State) (l : Lane) (u : UnitDesc) : Nat :=
  match tailRank s l with
  | none => s.policy.pEmpty
  | some r => min 255 ((r - u.rank) * 64)

/-- The score of an eligible lane at the tail position (R66). -/
def score (s : State) (l : Lane) (e : LaneEntry) (u : UnitDesc) : Nat :=
  let p := tailPlacement s l e u
  s.policy.wH * heelTerm s p + s.policy.wF * fillTerm e p + s.policy.wO * orderTerm s l u

/-- A best lane with its score and tail position (R67). -/
structure Best where
  lane : Lane
  score : Nat
  place : Placement
  deriving DecidableEq, Repr

/-- The lower score of two, the first on a tie (R67). -/
def better (a : Option Best) (b : Best) : Option Best :=
  match a with
  | none => some b
  | some x => if b.score < x.score then some b else some x

/-- The eligible lanes of the engine in ascending number (R67, R73). -/
def eligibleLanes (s : State) (u : UnitDesc) : List (Lane × LaneEntry) :=
  (definedLanes s).filter fun e => (tailFailures s e.1 e.2 u).isEmpty

/-- The engine's best lane: lowest score, ties to the lowest number (R67). -/
def bestLane (s : State) (u : UnitDesc) : Option Best :=
  (eligibleLanes s u).foldl
    (fun a e => better a { lane := e.1, score := score s e.1 e.2 u, place := tailPlacement s e.1 e.2 u }) none

end Sys2Proof.Machine
end

