-- ==== Sys2Proof/Machine/BidChain.lean ====
section
/-! DEFINITION. The Bid Chain (chapter 4) with the hold list and capacity-freed events (chapter 5): stamping, the bid step,
offers, settlement, the CONFIRM step, the HEAD's consumption and retries, and the commands CHECK_IN, CONFIRM and FREED. -/

namespace Sys2Proof.Machine

/-! ## The check-in at the HEAD (R78, R79) -/

/-- The hold list without the entry of a mark. -/
def holdsWithout (m : Mark) (l : List HoldEntry) : List HoldEntry := l.filter fun e => descMark e.desc != m

/-- The hold list has an entry of a mark. -/
def holdsMark (m : Mark) (l : List HoldEntry) : Bool := l.any fun e => descMark e.desc == m

/-- The frame as the HEAD validates and stamps it: height clamped, INVALID or NONE in the bid block, the chain sequence. -/
def stampFrame (s : State) (c : CheckIn) : CheckIn :=
  { c with desc := descClamp c.desc, sequence := s.chainSeq, bid := if descFaulty c.desc then .invalid else .none }

/-- The HEAD's state after stamping: the counter advances, and a valid check-in's mark leaves the hold list. -/
def stampState (s : State) (c : CheckIn) : State :=
  { s with
    chainSeq := s.chainSeq + 1
    holds := if descFaulty c.desc then s.holds else holdsWithout (descMark c.desc) s.holds }

/-! ## The bid step (R80 to R84) -/

/-- The bid step passes the frame unchanged (R80). -/
def bidPasses (s : State) (c : CheckIn) : Bool :=
  s.voyage != .opened || descFaulty c.desc || descTall c.desc
    || (match c.bid with
        | .invalid => true
        | .duplicate _ _ _ _ => true
        | .none => false
        | .bid _ _ _ _ => false)

/-- The engine has room for one more offer or reservation, general allocation apart (R82). -/
def commitmentRoom (s : State) : Bool :=
  decide (s.offers.length + s.reservations.length < Config.commitmentCapacity)

/-- The offer list, or offers and reservations together, are full (R82). -/
def offersFull (s : State) : Bool := decide (Config.offerCapacity ≤ s.offers.length) || !commitmentRoom s

/-- The bid in the frame, where there is one, is strictly beaten by a score (R83). -/
def beats (score : Nat) : BidBlock → Bool
  | .none => true
  | .bid sc _ _ _ => decide (score < sc)
  | .duplicate _ _ _ _ => false
  | .invalid => false

/-- An offer is placed in lane `l` (R84): a general allocation, the frame's description and sequence, listed at the tail, its
count set to the offer timeout, its handle at the end of the offer list. -/
def placeOffer (s : State) (u : UnitDesc) (seq : Seq) (l : Lane) : State :=
  match allocate s with
  | none => s
  | some (h, s1) =>
    let s2 := setRec s1 h { newRecord u .offered with sequence := some seq, deadline := some s.policy.offerTimeout }
    let s3 := listAtTail s2 h l
    { s3 with offers := s3.offers ++ [h] }

/-- The holder's part of the bid step (R81): the bid block names the holder, and a RESERVED holder's deadline restarts. -/
def bidDuplicate (s : State) (c : CheckIn) (h : Handle) : CheckIn × State :=
  let r := getRec s h
  match holderState r.state with
  | none => (c, s)
  | some st =>
    ({ c with bid := .duplicate s.position (recLane r) (recOffset r) (some st) },
      if r.state = .reserved then joinReservations s h else s)

/-- The bidding part of the bid step (R82, R83, R84). General allocation refused sets RECORDS_LOW whether or not the offer
list or the reservation count is full too (R25, R82; log 15). -/
def bidCompete (s : State) (c : CheckIn) (u : UnitDesc) : CheckIn × State :=
  if !generalAvailable s then (c, raiseNotice s .recordsLow)
  else if offersFull s then (c, s)
  else
    match bestLane s u with
    | none => (c, s)
    | some b =>
      if beats b.score c.bid then
        ({ c with bid := .bid b.score s.position b.lane b.place.offset }, placeOffer s u c.sequence b.lane)
      else (c, s)

/-- The bid step: what leaves of the frame, and the state after it. -/
def bidStep (s : State) (c : CheckIn) : CheckIn × State :=
  if bidPasses s c then (c, s)
  else
    match findHolder s (descMark c.desc) with
    | some h => bidDuplicate s c h
    | none =>
      match descUnit c.desc with
      | none => (c, s)
      | some u => bidCompete s c u

/-! ## Settlement (R87, R88) -/

/-- The frame a TAIL emits to the marshals for a check-in settled DUPLICATE, by the holder's state (Table 4.4). -/
def settleDuplicate (c : CheckIn) (lane : Lane) (offset : Nat) : HolderState → Option Frame
  | .reserved => some (.assign (descMark c.desc) lane offset (descRank c.desc) c.sequence)
  | .aboard => some (.hold (descMark c.desc) c.sequence .alreadyAboard)
  | .offered => none

/-- The frame a TAIL emits to the marshals for a settled check-in (Table 4.4). A duplicate state of code 0, which the table does not
name, is settled by the row of one of the three states, and which is open (log 35, DESIGN CHOICE). -/
def settleDown (c : CheckIn) : Option Frame :=
  match c.bid with
  | .bid _ _ lane offset => some (.assign (descMark c.desc) lane offset (descRank c.desc) c.sequence)
  | .none => if c.retry.set then none else some (.hold (descMark c.desc) c.sequence .noLane)
  | .duplicate _ lane offset st => settleDuplicate c lane offset (st.getD (Config.unnamedHolder c))
  | .invalid => some (.hold (descMark c.desc) c.sequence .invalid)

/-- The CONFIRM a TAIL makes for a settled check-in. -/
def settleUp (c : CheckIn) : Confirm :=
  { desc := c.desc, sequence := c.sequence, retry := c.retry
    result := match c.bid with
      | .bid _ pos lane offset => .winner pos lane offset
      | .none => .none .noLane
      | .duplicate pos lane _ st => .duplicate pos lane st
      | .invalid => .invalid }

/-- Emit a frame down, where there is one. -/
def emitDown (s : State) (f : Option Frame) : State :=
  match f with
  | none => s
  | some f => emitFwd s f

/-! ## The CONFIRM step (R89 to R93) -/

/-- The offer that matches a CONFIRM: OFFERED, with its sequence and its mark (R89). -/
def matchingOffer (s : State) (c : Confirm) : Option Handle :=
  s.offers.find? fun h =>
    (getRec s h).state == .offered && (getRec s h).sequence == some c.sequence && recHasMark (descMark c.desc) (getRec s h)

/-- An offer leaves the offer list, unlisted and freed, without a frame (R85, R86, R89, R145). -/
def withdrawOffer (s : State) (h : Handle) : State := freeRec { s with offers := s.offers.filter (· != h) } h

/-- The conditions under which a late confirm reserves, general allocation apart (R93). -/
def lateEligible (s : State) (u : UnitDesc) (l : Lane) : Bool :=
  s.voyage == .opened
    && (match entryOf s l with
        | none => false
        | some e => (tailFailures s l e u).isEmpty)
    && commitmentRoom s

/-- A late confirm's reservation in the named lane (R93). -/
def lateReserve (s : State) (u : UnitDesc) (seq : Seq) (l : Lane) : State :=
  match allocate s with
  | none => s
  | some (h, s1) =>
    let s2 := setRec s1 h { newRecord u .reserved with sequence := some seq }
    let s3 := joinReservations (listAtTail s2 h l) h
    post s3 .lateConfirm (some u.mark) (some l) none none

/-- The reason of a REVOKE and of the CONFIRM rewritten with it (R93). -/
def revokeReasons (s : State) : RevokeReason × NoneReason :=
  if s.voyage = .closed then (.closed, .closed) else (.revoked, .revoked)

/-- All five conditions of R93 hold of a late CONFIRM. A description that gives no unit, and one with a height above 600,
which is no clearance's, is eligible nowhere (R55, R69; log 17). -/
def lateUnit (s : State) (c : Confirm) (l : Lane) : Option UnitDesc :=
  match descExactUnit c.desc with
  | none => none
  | some u => if lateEligible s u l && generalAvailable s then some u else none

/-- The winner without a matching offer and without a holder of the mark (R93): it reserves, or revokes. A general allocation
that would be refused sets RECORDS_LOW whether or not another condition fails too (R25, R93; log 15). -/
def lateConfirm (s : State) (c : Confirm) (l : Lane) : Confirm × State :=
  match lateUnit s c l with
  | some u => (c, lateReserve s u c.sequence l)
  | none =>
    let s1 := if generalAvailable s then s else raiseNotice s .recordsLow
    ({ c with result := .none (revokeReasons s).2 },
      emitFwd s1 (.revoke (descMark c.desc) l c.sequence (revokeReasons s).1))

/-- The winner's part of the CONFIRM step (R90 to R93); `l` is the lane the CONFIRM names. -/
def confirmWinner (s : State) (c : Confirm) (l : Lane) : Confirm × State :=
  match matchingOffer s c with
  | some h =>
    let r := getRec s h
    if r.cancelPending then
      ({ c with result := .none .cancelled },
        emitFwd (withdrawOffer s h) (.lapse (recMark r) (recLane r) r.sequence .cancelled))
    else (c, makeReserved { s with offers := s.offers.filter (· != h) } h)
  | none =>
    match findHolder s (descMark c.desc) with
    | some h =>
      match holderState (getRec s h).state with
      | some st => ({ c with result := .duplicate s.position (recLane (getRec s h)) (some st) }, s)
      | none => (c, s)
    | none => lateConfirm s c l

/-- The part of the CONFIRM step of every engine that is not the winner (R89). -/
def confirmOther (s : State) (c : Confirm) : State :=
  match matchingOffer s c with
  | some h => withdrawOffer s h
  | none => s

/-- The CONFIRM step (R89): the frame as it goes on, and the state after it. -/
def confirmStep (s : State) (c : Confirm) : Confirm × State :=
  match c.result with
  | .winner pos l _ => if pos = s.position then confirmWinner s c l else (c, confirmOther s c)
  | .none _ => (c, confirmOther s c)
  | .duplicate _ _ _ => (c, confirmOther s c)
  | .invalid => (c, confirmOther s c)

/-! ## The CONFIRM at the HEAD (R94, R108) -/

/-- The hold-list entry of a consumed CONFIRM (R94, R106, R108). -/
def holdEntryOf (s : State) (c : Confirm) (reason : NoneReason) : HoldEntry :=
  { desc := descToLong c.desc, reason := reason
    heldSince := if c.retry.set then c.retry.heldSince else s.stowClock
    retries := if c.retry.set then c.retry.count else 0 }

/-- The unit of a CONFIRM without a lane is held, or shut out (R94, R108). -/
def holdUnit (s : State) (c : Confirm) (reason : NoneReason) : State :=
  if s.voyage != .opened then emitFwd s (.shutOut (descMark c.desc) .notOpen)
  else if c.retry.set && decide (Config.retryLimit ≤ c.retry.count) then emitFwd s (.shutOut (descMark c.desc) .retries)
  else
    let kept := holdsWithout (descMark c.desc) s.holds
    if kept.length < Config.holdCapacity then { s with holds := kept ++ [holdEntryOf s c reason] }
    else raiseNotice (emitFwd s (.shutOut (descMark c.desc) .holdFull)) .holdOverflow

/-- The HEAD consumes a CONFIRM (R94). -/
def headConsume (s : State) (c : Confirm) : State :=
  match c.result with
  | .none .cancelled => s
  | .none reason => holdUnit s c reason
  | .winner _ _ _ => s
  | .duplicate _ _ _ => s
  | .invalid => s

/-! ## Settlement with its CONFIRM step (R87, R95) -/

/-- A TAIL settles a check-in after its bid step (R87). -/
def settleTail (s : State) (c : CheckIn) : State :=
  let r := confirmStep (emitDown s (settleDown c)) (settleUp c)
  emitRet r.2 (.confirm r.1)

/-- A SOLE engine settles a check-in within its event (R95, steps 4 to 6). -/
def settleSole (s : State) (c : CheckIn) : State :=
  let r := confirmStep (emitDown s (settleDown c)) (settleUp c)
  headConsume r.2 r.1

/-! ## Capacity-freed events and retries (R104, R105, R107) -/

/-- The CHECK-IN a retry injects (R107). -/
def retryFrame (e : HoldEntry) : CheckIn :=
  { desc := e.desc, sequence := 0, retry := { set := true, count := e.retries + 1, heldSince := e.heldSince }, bid := .none }

/-- One retry of the oldest held unit, where the HEAD or SOLE is OPEN and holds one (R107). -/
def startRetry (s : State) : State :=
  if s.voyage != .opened then s
  else
    match s.holds with
    | [] => s
    | e :: rest =>
      let s1 := { s with holds := rest }
      let r := bidStep (stampState s1 (retryFrame e)) (stampFrame s1 (retryFrame e))
      match s.role with
      | .sole => settleSole r.2 r.1
      | _ => emitFwd r.2 (.checkIn r.1)

/-- A capacity-freed event of the engine's own (R105). -/
def capacityFreed (s : State) : State :=
  match s.role with
  | .mid => emitRet s (.freed s.position)
  | .tail => emitRet s (.freed s.position)
  | .head => startRetry s
  | .sole => startRetry s

/-! ## The commands -/

/-- A HEAD acts on a CHECK-IN (R77 to R79). -/
def checkInHead (s : State) (c : CheckIn) : State :=
  if s.voyage != .opened then emitFwd s (.shutOut (descMark c.desc) .notOpen)
  else
    let r := bidStep (stampState s c) (stampFrame s c)
    passDown r.2 (.checkIn r.1)

/-- A SOLE engine acts on a CHECK-IN (R95). -/
def checkInSole (s : State) (c : CheckIn) : State :=
  if s.voyage != .opened then emitFwd s (.shutOut (descMark c.desc) .notOpen)
  else
    let r := bidStep (stampState s c) (stampFrame s c)
    settleSole r.2 r.1

/-- The engine acts on a CHECK-IN by its role (R77 to R88, R95). -/
def actCheckIn (c : CheckIn) (s : State) : State :=
  match s.role with
  | .head => checkInHead s c
  | .mid => passDown (bidStep s c).2 (.checkIn (bidStep s c).1)
  | .tail => settleTail (bidStep s c).2 (bidStep s c).1
  | .sole => checkInSole s c

/-- The engine acts on a CONFIRM from return in (R89, R94). -/
def actConfirm (c : Confirm) (s : State) : State :=
  let r := confirmStep s c
  match s.role with
  | .head => headConsume r.2 r.1
  | .sole => headConsume r.2 r.1
  | .mid => passUp r.2 (.confirm r.1)
  | .tail => passUp r.2 (.confirm r.1)

/-- The engine acts on a FREED frame from return in (R105). -/
def actFreed (pos : Pos) (s : State) : State :=
  match s.role with
  | .mid => passUp s (.freed pos)
  | .tail => passUp s (.freed pos)
  | .head => startRetry s
  | .sole => startRetry s

/-- CHECK_IN (R80): a CHECK-IN taken from forward in. -/
def execCheckIn (c : CheckIn) (s : State) : Host.Outcome State Fault Refusal :=
  .next (takeFrame .fwd (.checkIn c) (fun _ => true) (actCheckIn c) s)

/-- CONFIRM (R89): a CONFIRM taken from return in. -/
def execConfirm (c : Confirm) (s : State) : Host.Outcome State Fault Refusal :=
  .next (takeFrame .ret (.confirm c) (fun _ => true) (actConfirm c) s)

/-- FREED (R105): a FREED frame taken from return in. -/
def execFreed (pos : Pos) (s : State) : Host.Outcome State Fault Refusal :=
  .next (takeFrame .ret (.freed pos) (fun _ => true) (actFreed pos) s)

end Sys2Proof.Machine
end

