-- ==== Sys2Proof/Machine/Power.lean ====
section
/-! DEFINITION. Pins and time: POWER_ON, RESET_ASSERT, STOW_CLOCK_TICK and the four expiries. -/

namespace Sys2Proof.Machine

/-- POWER_ON (R192, R74): reset is released with these straps, and every table takes its power-on contents. -/
def execPowerOn (roleStraps posStraps : BitVec 2) (s : State) : Host.Outcome State Fault Refusal :=
  .next { powerOnState (roleOfStraps roleStraps) posStraps with pending := s.pending }

/-- RESET_ASSERT (R192): RESET_N goes low; the engine drives no frame and signals hold-off on both inputs. -/
def execResetAssert (s : State) : Host.Outcome State Fault Refusal :=
  .next { s with inReset := true, drivenFwd := none, drivenRet := none }

/-- One tick of a count that has not run out (R84, R98, R146, R172). -/
def tickCount (n : Option Nat) : Option Nat := n.map fun k => k - 1

/-- A record one tick on: its offer or reservation count falls by one (R84, R98). -/
def tickRecord (r : UnitRec) : UnitRec := { r with deadline := tickCount r.deadline }

/-- A section one tick on: a running travel timer falls by one (R146). -/
def tickSection (e : SectionEntry) : SectionEntry := { e with timer := tickCount e.timer }

/-- Every clock and count one tick on (R161, R192). -/
def tickState (s : State) : State :=
  { s with
    stowClock := s.stowClock + 1
    records := s.records.map fun e => (e.1, tickRecord e.2)
    sections := s.sections.map fun e => (e.1, tickSection e.2)
    reportTimer := tickCount s.reportTimer }

/-- STOW_CLOCK_TICK (R161). The time base does not count in reset (R192). -/
def execStowClockTick (s : State) : Host.Outcome State Fault Refusal := .next (if s.inReset then s else tickState s)

/-- An offer's count has reached 0 (R85). -/
def offerExpired (s : State) (h : Handle) : Bool :=
  s.offers.contains h && (getRec s h).state == .offered && (getRec s h).deadline == some 0

/-- OFFER_DEADLINE (R85): the offer is withdrawn silently. -/
def execOfferDeadline (h : Handle) (s : State) : Host.Outcome State Fault Refusal :=
  .next (if !s.inReset && offerExpired s h then withdrawOffer s h else s)

/-- A reservation's count has reached 0 (R99). -/
def reservationExpired (s : State) (h : Handle) : Bool :=
  (getRec s h).state == .reserved && (getRec s h).deadline == some 0

/-- The reservation that lapses next: the first of the reservation list whose count has reached 0 (R97, R99). -/
def nextLapse (s : State) : Option Handle := s.reservations.find? (reservationExpired s)

/-- A reservation leaves the list, unlisted and freed (R99, R101, R102, R122). -/
def dropReservation (s : State) (h : Handle) : State :=
  freeRec { s with reservations := s.reservations.filter (· != h) } h

/-- A lapse (R99): freed, LAPSE (TIMEOUT) emitted, LAPSED set, a capacity-freed event. -/
def lapse (s : State) (h : Handle) : State :=
  let r := getRec s h
  capacityFreed
    (raiseNotice (emitFwd (dropReservation s h) (.lapse (recMark r) (recLane r) r.sequence .timeout)) .lapsed)

/-- RESERVATION_LAPSE (R99): the list's order decides which of the reservations that have run out lapses first (R97); one
behind another waits (log 13). -/
def execReservationLapse (h : Handle) (s : State) : Host.Outcome State Fault Refusal :=
  .next (if !s.inReset && nextLapse s == some h then endEvent s (lapse s h) else s)

/-- A moving section's travel timer has reached 0 (R146). -/
def travelExpired (e : SectionEntry) : Bool :=
  (e.state == .deploying || e.state == .stowing) && e.timer == some 0

/-- A travel timer's expiry (R146): FAULT, HOIST_TIMEOUT logged, HOIST_FAULT set. -/
def expireTravel (s : State) (id : Nat) (e : SectionEntry) : State :=
  raiseNotice
    (post (setSection s id { e with state := .fault, timer := none }) .hoistTimeout none none none (some (.hoistSection id)))
    .hoistFault

/-- TRAVEL_TIMER_EXPIRY (R146). -/
def execTravelTimerExpiry (id : Nat) (s : State) : Host.Outcome State Fault Refusal :=
  match Table.find s.sections id with
  | none => .next s
  | some e => .next (if !s.inReset && travelExpired e then endEvent s (expireTravel s id e) else s)

/-- The report in progress ends: timer stopped, report state IDLE (R172, R173). -/
def endReport (s : State) : State := { s with reportState := .idle, reportTimer := none, report := none }

/-- The serial of the report in progress. -/
def serialInProgress (s : State) : Byte := (s.report.map Prod.fst).getD s.reportSerial

/-- REPORT_TIMER_EXPIRY (R172): a HEAD in AWAITING whose timer reaches 0 emits REPORT ABORTED and becomes IDLE. -/
def execReportTimerExpiry (s : State) : Host.Outcome State Fault Refusal :=
  .next
    (if !s.inReset && s.role == .head && s.reportState == .awaiting && s.reportTimer == some 0 then
      endReport (emitRet s (.reportAborted (serialInProgress s)))
    else s)

end Sys2Proof.Machine
end

