-- ==== Sys2Proof/Machine/Requests.lean ====
section
/-! DEFINITION. Addressed requests (R187, R188): taking one, answering it with one REPLY, clearing pending-clear (R157), and
what follows the REPLY in the same event. -/

namespace Sys2Proof.Machine

/-- What follows a REPLY within its event: nothing, a capacity-freed event (R105), ATTENTION (R180, R181), or more frames
on return out (R165). -/
inductive After where
  | nothing
  | freed
  | attention
  | frames (fs : List Frame)
  deriving DecidableEq, Repr

/-- How a request is answered: the state its action leaves, the outcome and body of the REPLY, and what follows. -/
structure Answer where
  st : State
  code : ReplyCode
  body : ReplyBody
  after : After
  deriving DecidableEq, Repr

/-- A refused request: nothing changes. -/
def refuse (s : State) (code : ReplyCode) : Answer := { st := s, code := code, body := .empty, after := .nothing }

/-- A taken request with a body. -/
def answer (s : State) (body : ReplyBody) : Answer := { st := s, code := .ok, body := body, after := .nothing }

/-- Originate frames on return out, in order. -/
def emitAllRet : List Frame → State → State
  | [], s => s
  | f :: t, s => emitAllRet t (emitRet s f)

/-- What follows the REPLY. -/
def follow (a : After) (s : State) : State :=
  match a with
  | .nothing => s
  | .freed => capacityFreed s
  | .attention => emitAttention s
  | .frames fs => emitAllRet fs s

/-- The REPLY, and what follows it (R187, R188). -/
def finish (q : ReqHead) (a : Answer) : State :=
  follow a.after (emitRet a.st (.reply q.tag a.st.position a.code a.body))

/-- The pending-clear flag cleared (R157). -/
def clearPending (a : Answer) : Answer := { a with st := { a.st with pendingClear := false } }

/-- The request names this engine (R188). -/
def isTarget (q : ReqHead) (s : State) : Bool := q.target == s.position

/-- An addressed request other than CLEAR VOYAGE, taken from forward in by the engine it names: it acts, clears
pending-clear, is answered by one REPLY, and the frame goes no further (R157, R188). -/
def serve (q : ReqHead) (body : ReqBody) (act : State → Answer) (s : State) : State :=
  takeFrame .fwd (.request q body) (isTarget q) (fun t => finish q (clearPending (act t))) s

end Sys2Proof.Machine
end

