-- ==== Sys2Proof/Machine/Hoist.lean ====
section
/-! DEFINITION. Hoistable decks (chapter 7): HOIST_STATUS_DOWN, HOIST_STATUS_UP, DEPLOY and STOW. -/

namespace Sys2Proof.Machine

/-! ## Status frames (R143 to R145) -/

/-- The over-height occupants of a section's covered lanes, in listed lane order, forward to aft (R141, R144). -/
def overHeight (s : State) (e : SectionEntry) : List (Lane × Handle) :=
  e.covered.flatMap fun l =>
    ((occupantsOf s l).filter fun h => decide (e.reduced < recHeight (getRec s h))).map fun h => (l, h)

/-- LIMIT with HEIGHT for each over-height occupant (R144). -/
def postHeights : List (Lane × Handle) → State → State
  | [], s => s
  | (l, h) :: t, s =>
    postHeights t (post s .limit (some (recMark (getRec s h))) (some l) none (some (.checks [.height])))

/-- A hoist exception with the section id as detail (R144, R145). -/
def postHoist (s : State) (kind : ExcKind) (id : Nat) : State := post s kind none none none (some (.hoistSection id))

/-- An unpermitted DOWN (R144). -/
def downUnpermitted (s : State) (id : Nat) (e : SectionEntry) : State :=
  let s1 := setSection s id { e with state := .deployed, timer := none }
  postHeights (overHeight s1 e) (postHoist s1 .hoistUnpermitted id)

/-- HOIST STATUS DOWN at the target engine, for a defined section (R144). -/
def statusDown (s : State) (id : Nat) (e : SectionEntry) : State :=
  match e.state with
  | .deploying => capacityFreed (setSection s id { e with state := .deployed, timer := none })
  | .fault => postHoist (setSection s id { e with state := .deployed, timer := none }) .hoistLate id
  | .stowed => downUnpermitted s id e
  | .stowing => downUnpermitted s id e
  | .deployed => s

/-- The offers listed in a section's hoist lanes (R145). -/
def offersIn (s : State) (e : SectionEntry) : List Handle :=
  s.offers.filter fun h =>
    (getRec s h).state == .offered && (match (getRec s h).lane with
      | none => false
      | some l => e.hoist.contains l)

/-- Offers are withdrawn one after another, silently (R85, R145). -/
def withdrawAll : List Handle → State → State
  | [], s => s
  | h :: t, s => withdrawAll t (withdrawOffer s h)

/-- HOIST STATUS UP at the target engine, for a defined section (R145). -/
def statusUp (s : State) (id : Nat) (e : SectionEntry) : State :=
  let s1 := setSection s id { e with state := .stowed, timer := none }
  match e.state with
  | .stowing => s1
  | .fault => postHoist s1 .hoistLate id
  | .deploying => postHoist s1 .hoistUnpermitted id
  | .deployed => postHoist (withdrawAll (offersIn s1 e) s1) .hoistUnpermitted id
  | .stowed => s

/-- The engine at the target position acts on a status frame; every engine forwards it unchanged (R143). -/
def actHoistStatus (target : Pos) (id : Nat) (down : Bool) (s : State) : State :=
  let s1 :=
    if target = s.position then
      match Table.find s.sections id with
      | none => s
      | some e => if down then statusDown s id e else statusUp s id e
    else s
  passDown s1 (.hoistStatus target id down)

/-- HOIST_STATUS_DOWN (R144). -/
def execHoistStatusDown (target : Pos) (id : Nat) (s : State) : Host.Outcome State Fault Refusal :=
  .next (takeFrame .fwd (.hoistStatus target id true) (fun _ => true) (actHoistStatus target id true) s)

/-- HOIST_STATUS_UP (R145). -/
def execHoistStatusUp (target : Pos) (id : Nat) (s : State) : Host.Outcome State Fault Refusal :=
  .next (takeFrame .fwd (.hoistStatus target id false) (fun _ => true) (actHoistStatus target id false) s)

/-! ## DEPLOY and STOW (R141, R142) -/

/-- A BLOCKED answer naming the occupant in the way (R141). -/
def blockedBy (s : State) (l : Lane) (h : Handle) (height : Option Nat) : Answer :=
  { st := s, code := .blocked, body := .blocked l h (recMark (getRec s h)) height, after := .nothing }

/-- A movement starts (R141, R142): new state, travel timer at ten ticks to the second, HOIST PERMIT down. -/
def startMove (s : State) (id : Nat) (e : SectionEntry) (st : HoistState) (move : HoistMove) : Answer :=
  answer
    (emitFwd (setSection s id { e with state := st, timer := some (10 * e.travel) })
      (.hoistPermit s.position id move e.travel))
    (.hoist id st)

/-- DEPLOY: BAD_FIELD, NO_SUCH, WRONG_STATE, BLOCKED, or taken (R141). -/
def actDeploy (id : Nat) (s : State) : Answer :=
  if 5 < id then refuse s .badField
  else
    match Table.find s.sections id with
    | none => refuse s .noSuch
    | some e =>
      if e.state ≠ .stowed then refuse s .wrongState
      else
        match overHeight s e with
        | (l, h) :: _ => blockedBy s l h (some (recHeight (getRec s h)))
        | [] => startMove s id e .deploying .lower

/-- The occupants of a section's hoist lanes, in listed lane order, forward to aft (R141). -/
def hoistOccupants (s : State) (e : SectionEntry) : List (Lane × Handle) :=
  e.hoist.flatMap fun l => (occupantsOf s l).map fun h => (l, h)

/-- STOW: BAD_FIELD, NO_SUCH, WRONG_STATE, BLOCKED, or taken (R141). -/
def actStow (id : Nat) (s : State) : Answer :=
  if 5 < id then refuse s .badField
  else
    match Table.find s.sections id with
    | none => refuse s .noSuch
    | some e =>
      if e.state ≠ .deployed ∧ e.state ≠ .fault then refuse s .wrongState
      else
        match hoistOccupants s e with
        | (l, h) :: _ => blockedBy s l h none
        | [] => startMove s id e .stowing .raise

/-- DEPLOY (R141). -/
def execDeploy (q : ReqHead) (id : Nat) (s : State) : Host.Outcome State Fault Refusal :=
  .next (serve q (.deploy id) (actDeploy id) s)

/-- STOW (R141). -/
def execStow (q : ReqHead) (id : Nat) (s : State) : Host.Outcome State Fault Refusal :=
  .next (serve q (.stow id) (actStow id) s)

end Sys2Proof.Machine
end

