-- ==== Sys2Proof/Machine/Layout.lean ====
section
/-! DEFINITION. Bytes: the frame and its check (R182), the tests of an arriving frame (R184), and the layouts the manual
prints (R190, R191, Tables 11.3 to 11.7). Multi-byte numbers stand most significant byte first. -/

namespace Sys2Proof.Machine

/-! ## Numbers in bytes -/

/-- A number in `k` bytes, most significant first (R182). -/
def beBytes : Nat → Nat → List Byte
  | 0, _ => []
  | k + 1, n => BitVec.ofNat 8 (n / 256 ^ k) :: beBytes k n

/-- The number some bytes carry, most significant first (R182). -/
def beNat (l : List Byte) : Nat := l.foldl (fun n b => n * 256 + b.toNat) 0

/-- A signed number in `k` bytes: two's complement, most significant first (R182). -/
def signedBytes (k : Nat) (i : Int) : List Byte := beBytes k (BitVec.ofInt (8 * k) i).toNat

/-- The signed number some bytes carry (R182). -/
def signedOfBytes (l : List Byte) : Int := (BitVec.ofNat (8 * l.length) (beNat l)).toInt

/-- A Bool as a bit. -/
def bitOf (b : Bool) : Nat := if b then 1 else 0

/-! ## Unit descriptions (Tables 11.3, 11.4) -/

/-- The bytes of a description; bits not read are 0. -/
def descBytes : Desc → List Byte
  | .long k r n m l w h z =>
    BitVec.ofNat 8 (128 + 16 * k.toNat + 8 * bitOf r + n.toNat) :: (beBytes 5 m.toNat ++ l :: (beBytes 2 w.toNat
      ++ (beBytes 2 h.toNat ++ [z])))
  | .short k n m l w h =>
    BitVec.ofNat 8 (16 * k.toNat + n.toNat) :: (beBytes 5 m.toNat
      ++ [BitVec.ofNat 8 (4 * l.toNat), BitVec.ofNat 8 (4 * w.toNat), BitVec.ofNat 8 h.toNat])

/-- The description some bytes carry: bit 7 of the first byte tells the long form (12 bytes) from the short (9 bytes). -/
def descOfBytes : List Byte → Option Desc
  | [b0, m0, m1, m2, m3, m4, l, w0, w1, h0, h1, z] =>
    if 128 ≤ b0.toNat then
      some (.long (BitVec.ofNat 3 (b0.toNat / 16)) (decide (b0.toNat / 8 % 2 = 1)) (BitVec.ofNat 3 b0.toNat)
        (BitVec.ofNat 40 (beNat [m0, m1, m2, m3, m4])) l (BitVec.ofNat 16 (beNat [w0, w1]))
        (BitVec.ofNat 16 (beNat [h0, h1])) z)
    else none
  | [b0, m0, m1, m2, m3, m4, l, w, h] =>
    if 128 ≤ b0.toNat then none
    else
      some (.short (BitVec.ofNat 3 (b0.toNat / 16)) (BitVec.ofNat 3 b0.toNat)
        (BitVec.ofNat 40 (beNat [m0, m1, m2, m3, m4])) (BitVec.ofNat 6 (l.toNat / 4)) (BitVec.ofNat 6 (w.toNat / 4))
        (BitVec.ofNat 3 h.toNat))
  | _ => none

/-! ## Bid block (Table 11.5) -/

/-- Code of a duplicate state; 0 where none is named (log 35). -/
def holderCode : Option HolderState → Nat
  | none => 0
  | some .offered => 1
  | some .reserved => 2
  | some .aboard => 3

/-- Duplicate state of a code; 0 names none. -/
def holderOfCode : Nat → Option HolderState
  | 1 => some .offered
  | 2 => some .reserved
  | 3 => some .aboard
  | _ => none

/-- What a field of some bits carries of an offset: the offset where it fits, and where it does not, a value that the manual
leaves open (R30, Tables 11.5 and 11.7; log 30, DESIGN CHOICE). -/
def fitOffset (bits offset : Nat) : Nat :=
  if offset < 2 ^ bits then offset else Config.longOffset bits offset % 2 ^ bits

/-- The bytes of a bid block; an absent field is written 0 (R191). -/
def bidBytes : BidBlock → List Byte
  | .none => beBytes 6 0
  | .bid score pos lane offset =>
    BitVec.ofNat 8 (64 + 16 * pos.toNat) :: (beBytes 2 score ++ (beBytes 1 lane ++ beBytes 2 (fitOffset 16 offset)))
  | .duplicate pos lane offset st =>
    BitVec.ofNat 8 (128 + 16 * pos.toNat + 4 * holderCode st)
      :: (beBytes 2 0 ++ (beBytes 1 lane ++ beBytes 2 (fitOffset 16 offset)))
  | .invalid => 192 :: beBytes 5 0

/-- The bid block six bytes carry; the status governs which fields are read (R191), and every six bytes are one. -/
def bidOfBytes : List Byte → Option BidBlock
  | [b0, s0, s1, l, o0, o1] =>
    match b0.toNat / 64 with
    | 0 => some .none
    | 1 => some (.bid (beNat [s0, s1]) (BitVec.ofNat 2 (b0.toNat / 16)) l.toNat (beNat [o0, o1]))
    | 2 => some (.duplicate (BitVec.ofNat 2 (b0.toNat / 16)) l.toNat (beNat [o0, o1]) (holderOfCode (b0.toNat / 4 % 4)))
    | _ => some .invalid
  | _ => none

/-! ## Exception records and report entries (Tables 11.6, 11.7) -/

/-- Code of an exception kind, in the order of Table 10.3. -/
def excCode : ExcKind → Nat
  | .order => 0 | .wrongLane => 1 | .forced => 2 | .limit => 3 | .restow => 4 | .exitOrder => 5 | .unknownExit => 6
  | .unplaced => 7 | .unrecorded => 8 | .lateConfirm => 9 | .overcarried => 10 | .hoistTimeout => 11 | .hoistLate => 12
  | .hoistUnpermitted => 13 | .hoistMoving => 14 | .tallyClosed => 15

/-- The detail word: bit n − 1 for failed check n, or the section id. -/
def detailWord : ExcDetail → Nat
  | .checks failed => (allChecks.map fun c => if failed.contains c then 2 ^ (checkNumber c - 1) else 0).sum
  | .hoistSection id => id

/-- The bytes of an exception record (Table 11.6); an absent field is written 0, the presence bits govern (R191). -/
def excBytes (r : ExcRecord) : List Byte :=
  beBytes 2 r.sequence.toNat ++ beBytes 4 r.clock.toNat
    ++ [BitVec.ofNat 8 (16 * excCode r.kind + 8 * bitOf r.mark.isSome + 4 * bitOf r.lane.isSome + 2 * bitOf r.second.isSome
        + bitOf r.detail.isSome)]
    ++ beBytes 5 ((r.mark.map BitVec.toNat).getD 0) ++ beBytes 1 (r.lane.getD 0)
    ++ beBytes 5 ((r.second.map BitVec.toNat).getD 0) ++ beBytes 2 ((r.detail.map detailWord).getD 0)

/-- Code of a report entry's state (Table 11.7). -/
def reportStateCode : RecState → Nat
  | .offered => 0
  | .trial => 1
  | .reserved => 2
  | .aboard => 3
  | .left => 4
  | .free => 0

/-- The bytes of a report entry (Table 11.7); the lane follows at a run start only. An offset of 16,384 dm or more does not fit the
14 bits the table gives it, and the manual does not say what they carry then: `fitOffset` leaves it open (log 30). -/
def entryBytes (pos : Pos) (runStart : Bool) (e : ReportEntry) : List Byte :=
  [BitVec.ofNat 8 (32 * (codeOfKind e.kind).toNat + 4 * reportStateCode e.state + 2 * bitOf e.forced + bitOf e.defaulted),
    BitVec.ofNat 8 (32 * (e.rank - 1) + 4 * (e.mass / 256) + pos.toNat)]
    ++ beBytes 5 e.mark.toNat ++ beBytes 1 (e.mass % 256)
    ++ beBytes 2 (32768 * bitOf runStart + fitOffset 14 (e.offset.getD 0))
    ++ (if runStart then beBytes 1 e.lane else [])

/-! ## The frame check (R182) -/

/-- One bit of the frame check: polynomial x^16 + x^12 + x^5 + 1. -/
def crcShift (c : BitVec 16) : BitVec 16 := if c.msb then (c <<< 1) ^^^ 0x1021#16 else c <<< 1

/-- Some shifts of the frame check. -/
def crcShifts : Nat → BitVec 16 → BitVec 16
  | 0, c => c
  | n + 1, c => crcShifts n (crcShift c)

/-- One byte of the frame check, most significant bit first. -/
def crcByte (c : BitVec 16) (b : Byte) : BitVec 16 := crcShifts 8 (c ^^^ (b.zeroExtend 16 <<< 8))

/-- The frame check of the type, length and body bytes: initial value FFFF, nothing reflected, nothing exclusive-ored into
the result. -/
def frameCheck (l : List Byte) : BitVec 16 := l.foldl crcByte 0xFFFF#16

/-! ## Frames as bytes (R182) and the tests of an arrival (R184) -/

/-- The filler that brings a frame to 8 bytes (R182). -/
def fillerBytes (n : Nat) : List Byte := (List.range n).map Config.filler

/-- A body with its filler. -/
def filledBody (body : List Byte) : List Byte := body ++ fillerBytes (3 - body.length)

/-- A frame: delimiter, type, length, body with filler, check (R182). -/
def frameBytes (type : Byte) (body : List Byte) : List Byte :=
  let inner := type :: BitVec.ofNat 8 (5 + (filledBody body).length) :: filledBody body
  0x7E#8 :: (inner ++ beBytes 2 (frameCheck inner).toNat)

/-- What the tests of R184 make of arriving bytes. -/
inductive ArrivalTest where
  | outside | fails | passes
  deriving DecidableEq, Repr

/-- The tests on the bytes from a start delimiter on (R184): length 8 to 72, the frame whole, the check right. -/
def testFrame (fromDelimiter : List Byte) : ArrivalTest :=
  match fromDelimiter with
  | [] => .outside
  | [_] => .fails
  | [_, _] => .fails
  | _ :: type :: len :: rest =>
    if len.toNat < 8 ∨ 72 < len.toNat then .fails
    else if rest.length + 3 < len.toNat then .fails
    else if beNat ((rest.drop (len.toNat - 5)).take 2)
        = (frameCheck (type :: len :: rest.take (len.toNat - 5))).toNat then .passes
    else .fails

/-- The tests on arriving bytes; bytes before a start delimiter are dropped and set nothing (R184). -/
def testArrival (wire : List Byte) : ArrivalTest := testFrame (wire.dropWhile fun b => b != 0x7E#8)

/-! ## The bytes of the engine's frames -/

/-- The type of a frame (Table 11.1); `none` where the type byte names none. -/
def frameType : Frame → Option FrameType
  | .checkIn _ => some .checkIn
  | .tallyOn _ _ _ _ => some .tallyOn
  | .tallyOff _ _ _ => some .tallyOff
  | .hoistStatus _ _ _ => some .hoistStatus
  | .request _ _ => some .request
  | .laneMask _ _ => some .laneMask
  | .abort => some .abort
  | .sealOrder => some .sealOrder
  | .unsealOrder _ => some .unsealOrder
  | .cancel _ => some .cancel
  | .clock _ => some .clock
  | .identify => some .identify
  | .assign _ _ _ _ _ => some .assign
  | .hold _ _ _ => some .hold
  | .revoke _ _ _ _ => some .revoke
  | .lapse _ _ _ _ => some .lapse
  | .shutOut _ _ => some .shutOut
  | .hoistPermit _ _ _ _ => some .hoistPermit
  | .reportToken _ => some .reportToken
  | .confirm _ => some .confirm
  | .freed _ => some .freed
  | .trailer _ _ => some .trailer
  | .reply _ _ _ _ => some .reply
  | .attention _ _ _ _ => some .attention
  | .ident _ _ _ _ _ _ => some .ident
  | .reportHeader _ _ _ => some .reportHeader
  | .sectionHeader _ _ _ _ _ _ => some .sectionHeader
  | .reportRecords _ _ _ => some .reportRecords
  | .reportAborted _ => some .reportAborted
  | .unknown _ _ => none

/-- The type byte of a frame. -/
def frameTypeByte (f : Frame) : Byte :=
  match f with
  | .unknown type _ => type
  | f => ((frameType f).map Config.typeByte).getD 0

/-! ## Bodies (R182, R187)

A body begins with what R187 prints of it. Its parts follow in an order that the manual does not print, and with codes for
named values, flags and sets that it does not print: `Config` leaves both open (log 9). A part is one field, or a run of fields
whose order the manual gives: the items of Table 1.9 (R20) and every list that a rule orders. Every multi-byte number stands most
significant byte first, every signed one in two's complement (R182), and every description and bid block as 11.4 prints it. -/

/-- A field of a body: bytes of a printed width or layout, or a number whose width the manual does not print. `count` is a count
that can never be zero and that no printed layout marks as carried less one (log 31). -/
inductive Field where
  | bytes (l : List Byte)
  | number (n : Nat)
  | count (n : Nat)
  | signed (i : Int)
  deriving DecidableEq, Repr

/-- A unit mark: 40 bits. -/
def Field.mark (m : Mark) : Field := .bytes (beBytes 5 m.toNat)
/-- A ship lane: 0..255. -/
def Field.lane (l : Lane) : Field := .bytes (beBytes 1 l)
/-- A sequence: 16 bits. -/
def Field.sequence (n : Seq) : Field := .bytes (beBytes 2 n.toNat)
/-- A stow clock value: 32 bits. -/
def Field.tick (n : Tick) : Field := .bytes (beBytes 4 n.toNat)
/-- A moment: signed, 32 bits (section 3 of the introduction). -/
def Field.moment (i : Int) : Field := .bytes (signedBytes 4 i)
/-- A description, as Table 11.3 or 11.4 prints it. -/
def Field.desc (d : Desc) : Field := .bytes (descBytes d)

/-- An optional value's field, where it is present; an absent one has no bytes (log 36, DESIGN CHOICE). -/
def Field.ofOption {α : Type} (mk : α → Field) (a : Option α) : List Field := (a.map mk).toList

/-- Fields whose order the manual does not print: a part each. -/
def Field.each (l : List Field) : List (List Field) := l.map fun x => [x]

/-- The fields of a lane entry (Table 1.2). -/
def laneEntryFields (e : LaneEntry) : List Field :=
  [.number e.deck, .signed e.arm, .signed e.stopArm, .number e.usable, .number e.clearance, .number e.plugs
    , .bytes (beBytes 2 e.laneMass), .number e.unitMass]
    ++ Field.ofOption .lane e.port ++ Field.ofOption .lane e.starboard

/-- The parts of a REQUEST's body behind target, tag and kind. WRITE RANGE carries its count in count-1 encoding (R3); the triples
of WRITE SEGREGATION stand in the order in which they are applied (R14). -/
def requestFields : ReqBody → List (List Field)
  | .writeRange base count => Field.each [.lane base, .number (count - 1)]
  | .writeLane l f => Field.each
    (.lane l :: Field.ofOption .number f.deck ++ Field.ofOption .signed f.arm ++ Field.ofOption .signed f.stopArm
      ++ Field.ofOption .number f.usable ++ Field.ofOption .number f.clearance ++ Field.ofOption .number f.plugs
      ++ Field.ofOption .lane (f.port.getD none) ++ Field.ofOption .lane (f.starboard.getD none)
      ++ Field.ofOption (fun m => .bytes (beBytes 2 m.toNat)) f.laneMass ++ Field.ofOption .number f.unitMass)
  | .undefineLane l => [[.lane l]]
  | .writeDeck deck limit => Field.each [.number deck, .number limit]
  | .removeDeck deck => [[.number deck]]
  | .writeSection id hoist covered reduced travel =>
    [hoist.map .lane, covered.map .lane] ++ Field.each (.number id :: .number reduced :: Field.ofOption .number travel)
  | .removeSection id => [[.number id]]
  | .writeSegregation triples => [triples.flatMap fun t => [.number t.1, .number t.2.1, .number t.2.2]]
  | .writeLimits hLim tMin tMax => Field.each
    (Field.ofOption .moment hLim ++ Field.ofOption .moment tMin ++ Field.ofOption .moment tMax)
  | .writePolicy f => Field.each
    (Field.ofOption .number f.wH ++ Field.ofOption .number f.wF ++ Field.ofOption .number f.wO
      ++ Field.ofOption (fun b => .bytes [b]) f.pEmpty ++ Field.ofOption (fun b => .bytes [b]) f.offerTimeout
      ++ Field.ofOption (fun b => .bytes (beBytes 2 b.toNat)) f.resTimeout)
  | .writeGaps g => Field.each
    (Field.ofOption .number g.car ++ Field.ofOption .number g.van ++ Field.ofOption .number g.truck
      ++ Field.ofOption .number g.artic ++ Field.ofOption .number g.trailer ++ Field.ofOption .number g.project)
  | .writeDefaultUnit d => [[.desc d]]
  | .readProfile item =>
    match item with
    | .lane n => [[.lane n]]
    | .deck n => [[.number n]]
    | .hoistSection id => [[.number id]]
    | .segregation c => [[.number c]]
    | .other b => [[.bytes [b]]]
    | .summary | .limits | .policy | .defaultUnit => []
  | .readUnit key =>
    match key with
    | .handle h => [[.number h]]
    | .mark m => [[.mark m]]
  | .readLane l start => Field.each [.lane l, .number start]
  | .evaluate d l => Field.each (.desc d :: Field.ofOption .lane l)
  | .trial d => [[.desc d]]
  | .readHoldList start => [[.number start]]
  | .deploy id => [[.number id]]
  | .stow id => [[.number id]]
  | .ballast heel trim => Field.each [.bytes (beBytes 4 heel.toNat), .bytes (beBytes 4 trim.toNat)]
  | .report c =>
    match c with
    | .rank n => [[.number n]]
    | .other b => [[.bytes [b]]]
    | .aboard | .plan | .changed => []
  | .drainLog count => [[.count count]]
  | .readStowSummary | .undo | .commitTrials | .openVoyage | .clearVoyage | .readVoyage | .ackNotices _ | .setEnables _
  | .malformed _ _ => []

/-- The fields of a unit record (Table 2.2). No layout of a READ UNIT reply is printed: that an absent hazard class is carried as the
number 0, as Table 11.3 has it in a description, and any other absent field by no bytes, is the model's choice (R47; log 36, DESIGN
CHOICE). -/
def recordFields (r : UnitRec) : List Field :=
  ((r.desc.map fun u =>
      [.mark u.mark, .number u.length, .number u.mass, .number u.height, .number u.rank, .number (u.hazard.getD 0)]).getD [])
    ++ Field.ofOption .lane r.lane
    ++ Field.ofOption .number r.offset ++ Field.ofOption .signed r.centre ++ Field.ofOption .sequence r.sequence
    ++ Field.ofOption .number r.deadline ++ Field.ofOption .tick r.aboardTime ++ Field.ofOption .tick r.departureTime

/-- The parts of a READ LANE reply: the occupants from the start place aft (R48). -/
def laneViewFields (v : LaneView) : List (List Field) :=
  Field.each
    ([.lane v.lane, .number v.count, .number v.projFill, .number v.commFill, .number v.projMass, .number v.commMass
      , .number v.plugsUsed, .number v.clearance] ++ Field.ofOption .number v.tailRank)
    ++ [v.occupants.flatMap fun o => [.number o.place, .number o.handle, .number o.rank, .number o.offset, .number o.length]]

/-- The parts of a READ STOW SUMMARY reply: decks and lanes ascending (R49). -/
def summaryFields (v : StowSummary) : List (List Field) :=
  Field.each [.number v.free, .number v.offered, .number v.trial, .number v.reserved, .number v.aboard, .number v.left
    , .moment v.heelOffset, .moment v.trimOffset, .moment v.projHeel, .moment v.projTrim, .moment v.commHeel
    , .moment v.commTrim, .number v.suspectCount]
    ++ [v.decks.flatMap fun d => [.number d.1, .number d.2.1, .number d.2.2], v.suspects.map .lane]

/-- The parts of a REPLY's body behind tag, position and outcome. The items of READ PROFILE stand as Table 1.9 shows them (R20). -/
def replyFields : ReplyBody → List (List Field)
  | .empty => []
  | .timeouts offer res => Field.each [.number offer, .number res]
  | .profileSummary base count defined decks sections =>
    [[.lane base, .number count, .number defined] ++ decks.map .number ++ sections.map .number]
  | .profileLane e => Field.each ((e.map laneEntryFields).getD [])
  | .profileDeck deck limit => [[.number deck, .number limit]]
  | .profileSection e =>
    [(e.map fun v => v.hoist.map .lane ++ v.covered.map .lane ++ [.number v.reduced, .number v.travel]).getD []]
  | .profileSegregation codes => [codes.map fun c => .number (codeOfSeg c)]
  | .profileLimits l => [[.moment l.hLim, .moment l.tMin, .moment l.tMax]]
  | .profilePolicy p g =>
    [[.number p.wH, .number p.wF, .number p.wO, .number p.pEmpty, .number p.offerTimeout, .number p.resTimeout
      , .number g.car, .number g.van, .number g.truck, .number g.artic, .number g.trailer, .number g.project]]
  | .profileDefault d => [[.desc d]]
  | .unitRecord h r place trial =>
    Field.each (.number h :: recordFields r ++ Field.ofOption .number place ++ Field.ofOption .number trial)
  | .laneUndefined => []
  | .laneView v => laneViewFields v
  | .stowSummary v => summaryFields v
  | .evalLane l _ offset fill h t sc =>
    Field.each ([.lane l, .number offset, .number fill, .moment h, .moment t] ++ Field.ofOption .number sc)
  | .evalBest candidates eligible l sc offset fill h t =>
    Field.each [.number candidates, .number eligible, .lane l, .number sc, .number offset, .number fill, .moment h, .moment t]
  | .evalNone candidates eligible => Field.each [.number candidates, .number eligible]
  | .trialPlaced h l offset sc depth => Field.each [.number h, .lane l, .number offset, .number sc, .count depth]
  | .trialNone => []
  | .undone h m depth => Field.each [.number h, .mark m, .number depth]
  | .committed converted discarded => Field.each [.number converted, .number discarded]
  | .holdList count entries =>
    [[.number count], entries.flatMap fun e =>
      [.number e.place, .mark e.mark, .number e.rank, .tick e.heldSince, .number e.retries]]
  | .hoist id _ => [[.number id]]
  | .blocked l h m height => Field.each ([.lane l, .number h, .mark m] ++ Field.ofOption .number height)
  | .profileBad _ index _ => [[.number index]]
  | .ballast a b c d => Field.each [.moment a, .moment b, .moment c, .moment d]
  | .voyage v =>
    Field.each [.tick v.clock, .moment v.heelOffset, .moment v.trimOffset, .moment v.projHeel, .moment v.projTrim]
  | .reportSerial serial => [[.bytes [serial]]]
  | .drained _ _ _ => []
  | .notices _ _ _ => []
  | .target pos => [[.number pos.toNat]]

/-- The fields of a CONFIRM's result (R87). -/
def resultFields : ConfirmResult → List Field
  | .winner pos l offset => [.number pos.toNat, .lane l, .number offset]
  | .none _ => []
  | .duplicate pos l _ => [.number pos.toNat, .lane l]
  | .invalid => []

/-- The parts of a frame's body behind what R187 prints of it; named values, flags and sets apart. A section count is a count
that can never be zero (log 31); the deck entries of a section header ascend (R167). -/
def bodyFields : Frame → List (List Field)
  | .checkIn c => Field.each
    [.desc c.desc, .sequence c.sequence, .number c.retry.count, .tick c.retry.heldSince, .bytes (bidBytes c.bid)]
  | .tallyOn m l d _ => Field.each (.mark m :: .lane l :: Field.ofOption .desc d)
  | .tallyOff m l _ => Field.each [.mark m, .lane l]
  | .hoistStatus target id _ => Field.each [.number target.toNat, .number id]
  | .request _ body => requestFields body
  | .cancel m => [[.mark m]]
  | .clock v => [[.tick v]]
  | .assign m l offset rank n => Field.each [.mark m, .lane l, .number offset, .number rank, .sequence n]
  | .hold m n _ => Field.each [.mark m, .sequence n]
  | .revoke m l n _ => Field.each [.mark m, .lane l, .sequence n]
  | .lapse m l n _ => Field.each (.mark m :: .lane l :: Field.ofOption .sequence n)
  | .shutOut m _ => [[.mark m]]
  | .hoistPermit pos id _ travel => Field.each [.number pos.toNat, .number id, .number travel]
  | .reportToken t => Field.each [.bytes [t.serial], .count t.count]
  | .confirm c => Field.each
    (.desc c.desc :: .sequence c.sequence :: .number c.retry.count :: .tick c.retry.heldSince :: resultFields c.result)
  | .freed pos => [[.number pos.toNat]]
  | .trailer serial count => Field.each [.bytes [serial], .count count]
  | .reply _ _ _ body => replyFields body
  | .attention pos _ logged next => Field.each [.number pos.toNat, .number logged, .sequence next]
  | .ident pos _ serial base count _ =>
    Field.each [.number pos.toNat, .bytes (beBytes 4 serial.toNat), .lane base, .number count]
  | .reportHeader serial _ clock => Field.each [.bytes [serial], .tick clock]
  | .sectionHeader serial pos count h t decks =>
    Field.each [.bytes [serial], .number pos.toNat, .number count, .moment h, .moment t]
      ++ [decks.flatMap fun d => [.number d.1, .number d.2]]
  | .reportAborted serial => [[.bytes [serial]]]
  | .laneMask _ _ | .abort | .sealOrder | .unsealOrder _ | .identify | .reportRecords _ _ _ | .unknown _ _ => []

/-- The bytes a number needs, 4 at most: no number of the manual is wider. -/
def bytesNeeded (n : Nat) : Nat := if n < 256 then 1 else if n < 65536 then 2 else if n < 16777216 then 3 else 4

/-- The bytes a signed number needs in two's complement, 4 at most. -/
def signedBytesNeeded (i : Int) : Nat :=
  if -128 ≤ i ∧ i < 128 then 1 else if -32768 ≤ i ∧ i < 32768 then 2 else if -8388608 ≤ i ∧ i < 8388608 then 3 else 4

/-- A number in the open width of its field, which holds it (log 9). -/
def numberBytes (width n : Nat) : List Byte := beBytes (min 4 (max (bytesNeeded n) width)) n

/-- The bytes of the m-th field of the n-th part of a frame's body. -/
def fieldBytes (f : Frame) (n m : Nat) : Field → List Byte
  | .bytes l => l
  | .number v => numberBytes (Config.fieldWidth f n m) v
  | .count v => numberBytes (Config.fieldWidth f n m) (if Config.countLessOne f n m then v - 1 else v)
  | .signed v => signedBytes (min 4 (max (signedBytesNeeded v) (Config.fieldWidth f n m))) v

/-- The bytes of the n-th part of a frame's body: its fields one behind another. -/
def partBytes (f : Frame) (n : Nat) (part : List Field) : List Byte := (part.mapIdx fun m x => fieldBytes f n m x).flatten

/-- A part put in its place among others. -/
def putField (x : Nat × List Byte) : List (Nat × List Byte) → List (Nat × List Byte)
  | [] => [x]
  | y :: t => if x.1 ≤ y.1 then x :: y :: t else y :: putField x t

/-- Whether the rule of a request kind gives it more than `requestFields`: a named value, a flag, a set, or a field that may be
absent. The kinds of R49, R113, R114, R151, R156 and R163 have no body at all; the others answered `false` have the fields of
their rules alone (log 29, DEDUCED). -/
def requestHasOthers : ReqBody → Bool
  | .readStowSummary | .undo | .commitTrials | .openVoyage | .clearVoyage | .readVoyage => false
  | .writeRange _ _ | .writeDefaultUnit _ | .readLane _ _ | .trial _ | .readHoldList _ | .deploy _ | .stow _ | .ballast _ _
  | .drainLog _ => false
  | .writeLane _ _ | .undefineLane _ | .writeDeck _ _ | .removeDeck _ | .writeSection _ _ _ _ _ | .removeSection _
  | .writeSegregation _ | .writeLimits _ _ _ | .writePolicy _ | .writeGaps _ | .readProfile _ | .readUnit _
  | .evaluate _ _ | .report _ | .ackNotices _ | .setEnables _ | .malformed _ _ => true

/-- Whether a reply body carries a named value, a flag, a set, a word or the length of a list beside `replyFields`. The bodies
answered `false` are numbers alone (log 29, DEDUCED). -/
def replyHasOthers : ReplyBody → Bool
  | .empty | .timeouts _ _ | .profileDeck _ _ | .profileSegregation _ | .profileLimits _ | .profilePolicy _ _
  | .profileDefault _ | .undone _ _ _ | .committed _ _ | .ballast _ _ _ _ | .reportSerial _ | .target _ => false
  | .profileSummary _ _ _ _ _ | .profileLane _ | .profileSection _ | .unitRecord _ _ _ _ | .laneUndefined | .laneView _
  | .stowSummary _ | .evalLane _ _ _ _ _ _ _ | .evalBest _ _ _ _ _ _ _ _ | .evalNone _ _ | .trialPlaced _ _ _ _ _
  | .trialNone | .holdList _ _ | .hoist _ _ | .blocked _ _ _ _ | .profileBad _ _ _ | .voyage _ | .drained _ _ _
  | .notices _ _ _ => true

/-- Whether a body carries named values, flags or sets beside `bodyFields`. SEAL (R153) and ABORT (R159) have no body,
IDENTIFY is given none (R76), and seven frame types carry the fields of their rules alone (log 29, DEDUCED). -/
def hasOthers : Frame → Bool
  | .request _ body => requestHasOthers body
  | .reply _ _ _ body => replyHasOthers body
  | .abort | .sealOrder | .identify => false
  | .cancel _ | .clock _ | .assign _ _ _ _ _ | .freed _ | .trailer _ _ | .reportAborted _ | .sectionHeader _ _ _ _ _ _ => false
  | .checkIn _ | .tallyOn _ _ _ _ | .tallyOff _ _ _ | .hoistStatus _ _ _ | .laneMask _ _ | .unsealOrder _ | .hold _ _ _
  | .revoke _ _ _ _ | .lapse _ _ _ _ | .shutOut _ _ | .hoistPermit _ _ _ _ | .reportToken _ | .confirm _
  | .attention _ _ _ _ | .ident _ _ _ _ _ _ | .reportHeader _ _ _ | .reportRecords _ _ _ | .unknown _ _ => true

/-- The bytes of a frame's named values, flags and sets: at most 36, and none where it carries none. -/
def otherBytes (f : Frame) : List Byte := if hasOthers f then (Config.otherBytes f).take 36 else []

/-- The parts of a body in their places, and the bytes of its named values, flags and sets among them. -/
def placedFields (f : Frame) : List (Nat × List Byte) :=
  (otherBytes f :: (bodyFields f).mapIdx (partBytes f)).mapIdx
    (fun i l => (Config.fieldPlace f i, l)) |>.foldr putField []

/-- What every body of a frame's type begins with (R187). -/
def bodyHead : Frame → List Byte
  | .request q body => [BitVec.ofNat 8 q.target.toNat, q.tag, Config.requestKind body]
  | .reply tag pos code _ => [tag, BitVec.ofNat 8 pos.toNat, Config.outcomeCode code]
  | _ => []

/-- A body whole: as 11.4 prints it, or its head and its fields in their places. -/
def wholeBody : Frame → List Byte
  | .unknown _ body => body
  | .request q (.malformed kind body) => BitVec.ofNat 8 q.target.toNat :: q.tag :: kind :: body
  | .reportRecords serial pos entries => serial :: entries.flatMap fun e => entryBytes pos e.1 e.2
  | .reply tag pos code (.drained records left next) =>
    bodyHead (.reply tag pos code (.drained records left next))
      ++ ([BitVec.ofNat 8 records.length, BitVec.ofNat 8 left] ++ beBytes 2 next.toNat ++ records.flatMap excBytes)
  | f => bodyHead f ++ (placedFields f).flatMap Prod.snd

/-- The body of a frame, within the 72 bytes of a frame (R182). -/
def frameBody (f : Frame) : List Byte := (wholeBody f).take Config.bodyCapacity

/-- The bytes an output port drives for a frame. -/
def frameWire (f : Frame) : List Byte := frameBytes (frameTypeByte f) (frameBody f)

end Sys2Proof.Machine
end

