-- ==== Sys2Proof/Machine/Report.lean ====
section
/-! DEFINITION. Stowage reports (chapter 9): composing a section, emitting it, passing the token, ending and abandoning a
report, and the commands REPORT, REPORT_TOKEN and TRAILER. -/

namespace Sys2Proof.Machine

/-! ## Composing (R166 to R168) -/

/-- The criterion lists a record (R166). -/
def criterionLists (c : Criterion) (r : UnitRec) : Bool :=
  match c with
  | .aboard => r.state == .aboard
  | .plan => r.state == .aboard || r.state == .reserved
  | .changed => r.changed && r.state != .free
  | .rank n => r.state == .aboard && recRank r == n

/-- The records a section lists, in report order: by lane, listed occupants forward to aft, then LEFT records in the order
of departure (R167). -/
def sectionHandles (s : State) (c : Criterion) : List Handle :=
  (laneSlots s).flatMap fun x =>
    (x.2.occupants ++ s.departures.filter fun h => (getRec s h).lane == some x.1).filter fun h =>
      criterionLists c (getRec s h)

/-- The entry of a record (Table 9.2). -/
def entryOfRec (r : UnitRec) : ReportEntry :=
  { mark := recMark r, kind := recKind r, rank := recRank r, state := r.state, lane := recLane r, offset := r.offset
    mass := recMass r, forced := r.forced, defaulted := r.defaulted }

/-- A listed record under CHANGED: a LEFT record is freed, any other has CHANGED set false (R168). -/
def settleChanged (s : State) (h : Handle) : State :=
  if (getRec s h).state = .left then freeRec s h else setRec s h { getRec s h with changed := false }

/-- The effect of composing on the records listed (R168). -/
def settleAllChanged : List Handle → State → State
  | [], s => s
  | h :: t, s => settleAllChanged t (settleChanged s h)

/-- The SECTION frame of a composed section (R167). -/
def sectionFrame (s : State) (serial : Byte) (count : Nat) : Frame :=
  .sectionHeader serial s.position count (commHeel s) (commTrim s) (s.decks.map fun d => (d.1, commDeckMass s d.1))

/-- The engine composes its section into its report buffer, with the token it will pass on (R167, R168, R169). -/
def composeSection (s : State) (c : Criterion) (held : Token) : State :=
  let hs := sectionHandles s c
  let s1 := if c = .changed then settleAllChanged hs s else s
  { s1 with buffer := hs.map fun h => entryOfRec (getRec s h), emitting := true, heldToken := some held }

/-! ## Emitting a section (R169 to R171) -/

/-- Entries of one frame, each marked where it begins a run (R170); `prev` is the lane of the entry before. -/
def markRuns (prev : Option Lane) : List ReportEntry → List (Bool × ReportEntry)
  | [] => []
  | e :: t => (prev != some e.lane, e) :: markRuns (some e.lane) t

/-- The next REPORT RECORDS frame of the buffer (R169, R170). -/
def recordsFrame (s : State) (serial : Byte) : Frame :=
  .reportRecords serial s.position (markRuns none (s.buffer.take Config.recordsPerFrame))

/-- The last frame of the section has left: the report is passed on by role (R171). -/
def passToken (s : State) (t : Token) : State :=
  let s1 := { s with emitting := false, heldToken := none }
  match s.role with
  | .head => { emitFwd s1 (.reportToken t) with reportState := .awaiting, reportTimer := some Config.reportTicks }
  | .mid => emitFwd s1 (.reportToken t)
  | .tail => emitRet s1 (.trailer t.serial t.count)
  | .sole => emitRet s1 (.trailer t.serial t.count)

/-- The section's previous frame has left the port: its next frame is placed in the queue, or the token is passed (R169,
R171, R186). -/
def advanceSection (s : State) : State :=
  match s.heldToken with
  | none => s
  | some t => if s.buffer.isEmpty then passToken s t else emitRet s (recordsFrame s t.serial)

/-- A frame of this engine's own section. -/
def isSectionFrame : Frame → Bool
  | .sectionHeader _ _ _ _ _ _ => true
  | .reportRecords _ _ _ => true
  | _ => false

/-- What the departure of an originated frame from return out does to the report (R169, R171). -/
def reportSent (s : State) (f : Frame) : State :=
  match f with
  | .sectionHeader _ _ _ _ _ _ => if s.emitting then advanceSection s else s
  | .reportRecords _ _ _ =>
    if s.emitting then advanceSection { s with buffer := s.buffer.drop Config.recordsPerFrame } else s
  | .trailer _ _ => if s.role = .sole then endReport s else s
  | _ => s

/-! ## Abandoning a report (R159, R173, R186) -/

/-- A frame of the report that R186 removes from an originated queue. -/
def isReportFrame (f : Frame) : Bool :=
  isSectionFrame f
    || (match f with
        | .reportToken _ => true
        | .trailer _ _ => true
        | _ => false)

/-- The engine's own section, token and trailer are dropped: buffer emptied, section state IDLE, frames still waiting in
the originated queues removed (R173, R186), whether or not the HEAD's report is still in progress (log 27). -/
def dropSection (s : State) : State :=
  { s with
    buffer := [], emitting := false, heldToken := none
    origFwd := s.origFwd.filter fun f => !isReportFrame f
    origRet := s.origRet.filter fun f => !isReportFrame f }

/-- A HEAD or SOLE has a report in progress (R165). -/
def reportInProgress (s : State) : Bool := s.reportState != .idle

/-- The report is abandoned, the REPORT ABORTED frame apart. -/
def abandonQuietly (s : State) : State := endReport (dropSection s)

/-- The REPORT ABORTED frame a HEAD or SOLE emits for an abandoned report, where one is in progress (R173). -/
def abortedFrames (s : State) : List Frame :=
  match s.role with
  | .head => if reportInProgress s then [.reportAborted (serialInProgress s)] else []
  | .sole => if reportInProgress s then [.reportAborted (serialInProgress s)] else []
  | .mid => []
  | .tail => []

/-- The report is abandoned with its REPORT ABORTED (R159, R173). -/
def abandonReport (s : State) : State := emitAllRet (abortedFrames s) (abandonQuietly s)

/-! ## The commands -/

/-- REPORT at a HEAD or SOLE with its criterion good and no report in progress (R165). -/
def takeReport (s : State) (c : Criterion) : Answer :=
  let serial := s.reportSerial + 1
  let s1 := { s with reportSerial := serial, report := some (serial, c), reportState := .sending }
  let s2 := composeSection s1 c { serial := serial, criterion := c, count := 1 }
  { st := s2, code := .ok, body := .reportSerial serial
    after := .frames [.reportHeader serial c s.stowClock, sectionFrame s1 serial (sectionHandles s1 c).length] }

/-- REPORT (R165): WRONG_ROLE, BAD_FIELD, BUSY, or taken. -/
def actReport (cf : CriterionField) (s : State) : Answer :=
  if s.role = .mid ∨ s.role = .tail then refuse s .wrongRole
  else
    match criterionOf cf with
    | none => refuse s .badField
    | some c => if reportInProgress s then refuse s .busy else takeReport s c

/-- REPORT (R165). -/
def execReport (q : ReqHead) (cf : CriterionField) (s : State) : Host.Outcome State Fault Refusal :=
  .next (serve q (.report cf) (actReport cf) s)

/-- An earlier section still being emitted ends at a new token: its unsent entries are dropped, the frame of it still
waiting among them (R171, R186; log 12). -/
def endEarlierSection (s : State) : State :=
  if s.emitting then { s with buffer := [], heldToken := none, origRet := s.origRet.filter fun f => !isSectionFrame f }
  else s

/-- A MID or TAIL takes a REPORT TOKEN: it composes its section and starts emitting it (R167, R169, R171). -/
def takeToken (s : State) (t : Token) : State :=
  let s1 := endEarlierSection s
  emitRet (composeSection s1 t.criterion { t with count := t.count + 1 })
    (sectionFrame s1 t.serial (sectionHandles s1 t.criterion).length)

/-- The engine acts on a REPORT TOKEN from forward in: a HEAD or SOLE passes it through (R171). -/
def actReportToken (t : Token) (s : State) : State :=
  match s.role with
  | .mid => takeToken s t
  | .tail => takeToken s t
  | .head => passDown s (.reportToken t)
  | .sole => passDown s (.reportToken t)

/-- REPORT_TOKEN (R167). -/
def execReportToken (t : Token) (s : State) : Host.Outcome State Fault Refusal :=
  .next (takeFrame .fwd (.reportToken t) (fun _ => true) (actReportToken t) s)

/-- A HEAD in AWAITING takes the TRAILER of the report in progress (R172). -/
def trailerEnds (s : State) (serial : Byte) : Bool :=
  s.role == .head && s.reportState == .awaiting && s.report.map Prod.fst == some serial

/-- The engine acts on a TRAILER from return in: it is passed up, and ends the report it belongs to (R172). -/
def actTrailer (serial : Byte) (count : Nat) (s : State) : State :=
  passUp (if trailerEnds s serial then endReport s else s) (.trailer serial count)

/-- TRAILER (R172). -/
def execTrailer (serial : Byte) (count : Nat) (s : State) : Host.Outcome State Fault Refusal :=
  .next (takeFrame .ret (.trailer serial count) (fun _ => true) (actTrailer serial count) s)

end Sys2Proof.Machine
end

