-- ==== Sys2Proof/Machine/Link.lean ====
section
/-! DEFINITION. The Marshalling Link (chapter 11): FRAME_ARRIVAL, ARBITER_SEND, PASS_THROUGH, REQUEST_PASSED_ON,
NO_ENGINE_REPLY and UNKNOWN_REQUEST. -/

namespace Sys2Proof.Machine

/-- Hold-off signalled on an input port: while its queue holds 16 frames (R183), and in reset (R192). -/
def holdOff (s : State) (p : InPort) : Bool := s.inReset || decide (Config.rxCapacity ≤ (rxQueue s p).length)

/-- FRAME_ARRIVAL (R184): bytes end on an input port. A frame that passes the tests joins the queue (R183); one that fails
is discarded with LINK_ERROR; bytes outside a frame are dropped. `f` is what the bytes carry (log 9). -/
def execFrameArrival (p : InPort) (wire : List Byte) (f : Frame) (s : State) : Host.Outcome State Fault Refusal :=
  if s.inReset || unconnected s p then .next s
  else
    match testArrival wire with
    | .outside => .next s
    | .fails => .next (endEvent s (raiseNotice s .linkError))
    | .passes => .next (endEvent s (arrive s p f))

/-- The kind the arbiter of an output sends next, where a frame waits (R186). -/
def arbiterChoice (pass orig : List Frame) (last : SendKind) : Option SendKind :=
  match pass, orig with
  | [], [] => none
  | _ :: _, [] => some .pass
  | [], _ :: _ => some .originated
  | _ :: _, _ :: _ =>
    match last with
    | .pass => some .originated
    | .originated => some .pass

/-- A frame as an output drives it. -/
def driven (f : Frame) : Driven := { frame := f, wire := frameWire f }

/-- Forward out sends one waiting frame (R186). A retry CHECK-IN waits among the originated frames, and a CANCEL passed through
behind it may be sent ahead of it, where R103 says that the CANCEL follows the retry: R186 is followed (log 32, DEDUCED). -/
def sendFwd (s : State) : State :=
  match arbiterChoice s.passFwd s.origFwd s.lastFwd with
  | none => s
  | some .pass =>
    { s with passFwd := s.passFwd.tail, lastFwd := .pass, drivenFwd := s.passFwd.head?.map driven }
  | some .originated =>
    { s with origFwd := s.origFwd.tail, lastFwd := .originated, drivenFwd := s.origFwd.head?.map driven }

/-- Return out sends one waiting frame; the departure of a section frame or of a SOLE's TRAILER moves the report on
(R169, R171, R186). -/
def sendRet (s : State) : State :=
  match arbiterChoice s.passRet s.origRet s.lastRet with
  | none => s
  | some .pass =>
    { s with passRet := s.passRet.tail, lastRet := .pass, drivenRet := s.passRet.head?.map driven }
  | some .originated =>
    match s.origRet with
    | [] => s
    | f :: t => reportSent { s with origRet := t, lastRet := .originated, drivenRet := some (driven f) } f

/-- ARBITER_SEND (R186): an output port free of hold-off sends one waiting frame; held off, frames of both kinds wait. -/
def execArbiterSend (o : OutPort) (heldOff : Bool) (s : State) : Host.Outcome State Fault Refusal :=
  if s.inReset || heldOff then .next s
  else
    match o with
    | .fwd => .next (sendFwd s)
    | .ret => .next (sendRet s)

/-- The engine acts on frames of this type from this input (Table 11.1). -/
def actsOn (p : InPort) (f : Frame) : Bool :=
  match p, frameType f with
  | .fwd, some .checkIn => true
  | .fwd, some .tallyOn => true
  | .fwd, some .tallyOff => true
  | .fwd, some .hoistStatus => true
  | .fwd, some .request => true
  | .fwd, some .laneMask => true
  | .fwd, some .abort => true
  | .fwd, some .sealOrder => true
  | .fwd, some .unsealOrder => true
  | .fwd, some .cancel => true
  | .fwd, some .clock => true
  | .fwd, some .identify => true
  | .fwd, some .reportToken => true
  | .ret, some .confirm => true
  | .ret, some .freed => true
  | .ret, some .trailer => true
  | _, _ => false

/-- Pass a frame through on the output of its arrival direction (R185). -/
def passOn (p : InPort) (f : Frame) (s : State) : State :=
  match p with
  | .fwd => passDown s f
  | .ret => passUp s f

/-- PASS_THROUGH (R185): a frame the engine does not act on from its input, or of unknown type, is passed on unchanged. -/
def execPassThrough (p : InPort) (f : Frame) (s : State) : Host.Outcome State Fault Refusal :=
  .next (takeFrame p f (fun _ => !actsOn p f) (passOn p f) s)

/-- The engine answers requests for absent positions (R189). -/
def answersAbsent (s : State) : Bool := s.role == .tail || s.role == .sole

/-- REQUEST_PASSED_ON (R188): a REQUEST for another position goes on down the forward path. -/
def execRequestPassedOn (q : ReqHead) (body : ReqBody) (s : State) : Host.Outcome State Fault Refusal :=
  .next
    (takeFrame .fwd (.request q body) (fun t => !isTarget q t && !answersAbsent t) (fun t => passDown t (.request q body)) s)

/-- NO_ENGINE_REPLY (R189): a TAIL or SOLE answers a REQUEST for another position; pending-clear stays. -/
def execNoEngineReply (q : ReqHead) (body : ReqBody) (s : State) : Host.Outcome State Fault Refusal :=
  .next
    (takeFrame .fwd (.request q body) (fun t => !isTarget q t && answersAbsent t)
      (fun t => emitRet t (.reply q.tag t.position .noEngine (.target q.target))) s)

/-- UNKNOWN_REQUEST (R188): a kind the engine does not know, or a body too short or too long, is answered BAD_FIELD and
clears pending-clear. -/
def execUnknownRequest (q : ReqHead) (kind : Byte) (body : List Byte) (s : State) : Host.Outcome State Fault Refusal :=
  .next (serve q (.malformed kind body) (fun t => refuse t .badField) s)

end Sys2Proof.Machine
end

