-- ==== Sys2Proof/Machine/Notices.lean ====
section
/-! DEFINITION. The log's and the notices' addressed requests (chapter 10): DRAIN_LOG, ACK_NOTICES and SET_ENABLES. -/

namespace Sys2Proof.Machine

/-- DRAIN LOG: BAD_FIELD, or the oldest records removed and given (R177). -/
def actDrainLog (count : Nat) (s : State) : Answer :=
  if count < 1 ∨ 3 < count then refuse s .badField
  else
    let s1 := { s with log := s.log.drop count }
    answer s1 (.drained (s.log.take count) s1.log.length s1.nextExc)

/-- DRAIN_LOG (R177). -/
def execDrainLog (q : ReqHead) (count : Nat) (s : State) : Host.Outcome State Fault Refusal :=
  .next (serve q (.drainLog count) (actDrainLog count) s)

/-- The flags, enables and armed as a reply shows them (R180, R181). -/
def noticesBody (s : State) : ReplyBody := .notices s.notices s.enables s.armed

/-- ACK NOTICES: the flags named are cleared, armed is set; ATTENTION follows the REPLY where an enabled flag is still set
(R180). -/
def actAckNotices (flags : NoticeSet) (s : State) : Answer :=
  let s1 := { s with notices := noticeMinus s.notices flags, armed := true }
  { st := s1, code := .ok, body := noticesBody s1
    after := if noticeAny (noticeAnd s1.notices s1.enables) then .attention else .nothing }

/-- ACK_NOTICES (R180). -/
def execAckNotices (q : ReqHead) (flags : NoticeSet) (s : State) : Host.Outcome State Fault Refusal :=
  .next (serve q (.ackNotices flags) (actAckNotices flags) s)

/-- SET ENABLES: the nine enables are replaced; ATTENTION follows the REPLY where armed is set and a newly enabled flag is
set (R181). -/
def actSetEnables (enables : NoticeSet) (s : State) : Answer :=
  let s1 := { s with enables := enables }
  { st := s1, code := .ok, body := noticesBody s1
    after :=
      if s.armed && noticeAny (noticeAnd s.notices (noticeMinus enables s.enables)) then .attention else .nothing }

/-- SET_ENABLES (R181). -/
def execSetEnables (q : ReqHead) (enables : NoticeSet) (s : State) : Host.Outcome State Fault Refusal :=
  .next (serve q (.setEnables enables) (actSetEnables enables) s)

end Sys2Proof.Machine
end

