-- ==== Sys2Proof/Machine/Orders.lean ====
section
/-! DEFINITION. The fast orders (chapters 4, 5 and 8): LANE_MASK, ABORT, SEAL, UNSEAL, CANCEL, CLOCK and IDENTIFY. Each is
taken by every engine as it passes and forwarded unchanged. -/

namespace Sys2Proof.Machine

/-- A fast order taken from forward in: its effect, and the order forwarded unchanged. -/
def takeOrder (f : Frame) (act : State → State) (s : State) : State :=
  takeFrame .fwd f (fun _ => true) (fun t => act (passDown t f)) s

/-- The engine is a HEAD or SOLE: it holds a hold list (R106). -/
def hasHoldList (s : State) : Bool := s.role == .head || s.role == .sole

/-! ## LANE MASK (R160) -/

/-- A lane of the set. -/
def inMask (lanes : BitVec 256) (l : Lane) : Bool := lanes.getLsbD l

/-- The slot of lane `l` after the mask. -/
def maskSlot (lanes : BitVec 256) (action : Admin) (l : Lane) (x : LaneSlot) : LaneSlot :=
  if inMask lanes l then { x with entry := x.entry.map fun e => { e with admin := action } } else x

/-- The mask opens at least one defined lane of the range that was CLOSED. -/
def maskOpens (s : State) (lanes : BitVec 256) (action : Admin) : Bool :=
  action == .opened && (definedLanes s).any fun e => inMask lanes e.1 && e.2.admin == .closed

/-- LANE MASK's effect; in OPEN or CLOSED an opening is one capacity-freed event (R160). -/
def actLaneMask (lanes : BitVec 256) (action : Admin) (s : State) : State :=
  let s1 := { s with lanes := s.lanes.mapIdx fun i x => maskSlot lanes action (s.rangeBase + i) x }
  if s.voyage != .setup && maskOpens s lanes action then capacityFreed s1 else s1

/-- LANE_MASK (R160). -/
def execLaneMask (lanes : BitVec 256) (action : Admin) (s : State) : Host.Outcome State Fault Refusal :=
  .next (takeOrder (.laneMask lanes action) (actLaneMask lanes action) s)

/-! ## Withdrawals of SEAL and ABORT (R86, R101, R109, R115) -/

/-- Every offer is withdrawn, silently (R86). -/
def withdrawOffers (s : State) : State := freeAll s.offers { s with offers := [] }

/-- Every reservation is freed without LAPSE, FREED or LAPSED (R101). -/
def freeReservations (s : State) : State := freeAll s.reservations { s with reservations := [] }

/-- Every trial is discarded (R115). -/
def discardTrials (s : State) : State := freeAll s.trials { s with trials := [] }

/-- Frames down the forward output, in order. -/
def emitAllFwd : List Frame → State → State
  | [], s => s
  | f :: t, s => emitAllFwd t (emitFwd s f)

/-- A HEAD or SOLE empties its hold list with one SHUT OUT per entry, oldest first (R109). -/
def shutHolds (s : State) (reason : ShutReason) : State :=
  if hasHoldList s then
    emitAllFwd (s.holds.map fun e => .shutOut (descMark e.desc) reason) { s with holds := [] }
  else s

/-- SEAL's effect (R153). -/
def actSeal (s : State) : State :=
  if s.voyage = .opened then
    shutHolds (discardTrials (freeReservations (withdrawOffers { s with voyage := .closed }))) .sealed
  else s

/-- SEAL (R153). -/
def execSealOrder (s : State) : Host.Outcome State Fault Refusal := .next (takeOrder .sealOrder actSeal s)

/-- ABORT's effect (R159). -/
def actAbort (s : State) : State :=
  { abandonReport (shutHolds (discardTrials (withdrawOffers s)) .aborted) with pendingClear := false }

/-- ABORT (R159). -/
def execAbort (s : State) : Host.Outcome State Fault Refusal := .next (takeOrder .abort actAbort s)

/-! ## UNSEAL and the port advance (R154, R155) -/

/-- The port advance at one ABOARD record: its rank falls by one, or stays 1 with OVERCARRIED. -/
def advanceRec (l : Lane) (s : State) (h : Handle) : State :=
  let r := getRec s h
  if recRank r ≤ 1 then post s .overcarried (some (recMark r)) (some l) none none
  else setRec s h { r with desc := r.desc.map fun u => { u with rank := u.rank - 1 } }

/-- The port advance along one lane, forward to aft. -/
def advanceLane (l : Lane) : List Handle → State → State
  | [], s => s
  | h :: t, s => advanceLane l t (if isAboard s h then advanceRec l s h else s)

/-- The port advance over the lanes, in ascending number (R155). -/
def advanceLanes : List (Lane × LaneSlot) → State → State
  | [], s => s
  | x :: t, s => advanceLanes t (advanceLane x.1 x.2.occupants s)

/-- UNSEAL's effect (R154, R155). -/
def actUnseal (advance : Bool) (s : State) : State :=
  if s.voyage = .closed then
    let s1 := { s with voyage := .opened }
    if advance then advanceLanes (laneSlots s) s1 else s1
  else s

/-- UNSEAL (R154). -/
def execUnseal (advance : Bool) (s : State) : Host.Outcome State Fault Refusal :=
  .next (takeOrder (.unsealOrder advance) (actUnseal advance) s)

/-! ## CANCEL (R102, R103) -/

/-- A HEAD or SOLE removes the held entry of the mark with SHUT OUT (CANCELLED) (R103). -/
def cancelHeld (s : State) (m : Mark) : State :=
  if hasHoldList s && holdsMark m s.holds then
    emitFwd { s with holds := holdsWithout m s.holds } (.shutOut m .cancelled)
  else s

/-- A reservation of the mark is freed with LAPSE (CANCELLED): a capacity-freed event (R102). -/
def cancelReservation (s : State) (h : Handle) : State :=
  let r := getRec s h
  capacityFreed (emitFwd (dropReservation s h) (.lapse (recMark r) (recLane r) r.sequence .cancelled))

/-- CANCEL's effect (R102, R103). -/
def actCancel (m : Mark) (s : State) : State :=
  let s1 := cancelHeld s m
  match findHolder s1 m with
  | none => s1
  | some h =>
    match holderState (getRec s1 h).state with
    | some .reserved => cancelReservation s1 h
    | some .offered => setRec s1 h { getRec s1 h with cancelPending := true }
    | some .aboard => s1
    | none => s1

/-- CANCEL (R102). -/
def execCancel (m : Mark) (s : State) : Host.Outcome State Fault Refusal := .next (takeOrder (.cancel m) (actCancel m) s)

/-! ## CLOCK and IDENTIFY (R161, R76) -/

/-- CLOCK (R161): the stow clock takes the value carried. -/
def execClock (value : Tick) (s : State) : Host.Outcome State Fault Refusal :=
  .next (takeOrder (.clock value) (fun t => { t with stowClock := value }) s)

/-- The ID frame (R76). -/
def identFrame (s : State) : Frame :=
  .ident s.position s.role Config.serialNumber s.rangeBase s.lanes.length s.voyage

/-- IDENTIFY (R76): one ID frame up the return output. -/
def execIdentify (s : State) : Host.Outcome State Fault Refusal :=
  .next (takeOrder .identify (fun t => emitRet t (identFrame t)) s)

end Sys2Proof.Machine
end

