-- ==== Sys2Proof/Machine/Profile.lean ====
section
/-! DEFINITION. The Vessel Profile (chapter 1): the WRITE requests and READ PROFILE. Each refusal is tested in the order of
R1: NO_SUCH, WRONG_STATE, BAD_FIELD, FULL, unless the request's own rule says otherwise. -/

namespace Sys2Proof.Machine

/-- A taken write: OK with an empty body. -/
def taken (s : State) : Answer := answer s .empty

/-- The engine is in SETUP. -/
def inSetup (s : State) : Bool := s.voyage == .setup

/-! ## WRITE RANGE (R3) -/

/-- An undefined lane with nothing in it. -/
def emptySlot : LaneSlot := { entry := none, occupants := [], suspect := false }

/-- WRITE RANGE: the base and count are replaced and every lane entry becomes undefined (R3). -/
def actWriteRange (base count : Nat) (s : State) : Answer :=
  if !inSetup s then refuse s .wrongState
  else if 255 < base ∨ count < 1 ∨ Config.rangeCapacity < count ∨ 255 < base + count - 1 then refuse s .badField
  else taken { s with rangeBase := base, lanes := List.replicate count emptySlot }

/-- WRITE_RANGE (R3). -/
def execWriteRange (q : ReqHead) (base count : Nat) (s : State) : Host.Outcome State Fault Refusal :=
  .next (serve q (.writeRange base count) (actWriteRange base count) s)

/-! ## WRITE LANE (R5 to R9) -/

/-- The request carries a geometry field (Table 1.2). -/
def carriesGeometry (f : LaneFields) : Bool :=
  f.deck.isSome || f.arm.isSome || f.stopArm.isSome || f.usable.isSome || f.clearance.isSome || f.plugs.isSome
    || f.kinds.isSome || f.port.isSome || f.starboard.isSome

/-- Every field carried lies in its range (Table 1.2). -/
def laneFieldsIn (f : LaneFields) : Bool :=
  natIn 1 8 f.deck && intIn (-250) 250 f.arm && intIn (-1500) 1500 f.stopArm && natIn 50 2500 f.usable
    && natIn 150 600 f.clearance && natIn 0 15 f.plugs && natIn 0 255 (f.port.getD none)
    && natIn 0 255 (f.starboard.getD none) && natIn 5 1200 f.unitMass

/-- The neighbours of an entry: neither is the lane itself, and the two are not one lane (R5). -/
def neighboursGood (l : Lane) (e : LaneEntry) : Bool :=
  e.port != some l && e.starboard != some l && (e.port.isNone || e.port != e.starboard)

/-- The entry a WRITE LANE defines, where every geometry field but the neighbours is present (R5, Table 1.3). -/
def definedEntry (f : LaneFields) : Option LaneEntry :=
  match f.deck, f.arm, f.stopArm, f.usable, f.clearance, f.plugs, f.kinds with
  | some deck, some arm, some stopArm, some usable, some clearance, some plugs, some kinds =>
    some
      { deck := deck, arm := arm, stopArm := stopArm, usable := usable, clearance := clearance, plugs := plugs, kinds := kinds
        port := f.port.getD none, starboard := f.starboard.getD none, admin := f.admin.getD .opened
        laneMass := ((f.laneMass.map BitVec.toNat).getD 65535), unitMass := f.unitMass.getD 1200 }
  | _, _, _, _, _, _, _ => none

/-- A defined entry with the fields carried written (R6). -/
def updatedEntry (e : LaneEntry) (f : LaneFields) : LaneEntry :=
  { deck := written f.deck e.deck, arm := written f.arm e.arm, stopArm := written f.stopArm e.stopArm
    usable := written f.usable e.usable, clearance := written f.clearance e.clearance, plugs := written f.plugs e.plugs
    kinds := written f.kinds e.kinds, port := written f.port e.port, starboard := written f.starboard e.starboard
    admin := written f.admin e.admin, laneMass := written (f.laneMass.map BitVec.toNat) e.laneMass
    unitMass := written f.unitMass e.unitMass }

/-- Write a lane's entry. -/
def setEntry (s : State) (l : Lane) (e : Option LaneEntry) : State := modifySlot s l fun x => { x with entry := e }

/-- WRITE LANE naming an undefined lane of the range (R5). -/
def defineLane (s : State) (l : Lane) (f : LaneFields) : Answer :=
  if !inSetup s then refuse s .wrongState
  else
    match definedEntry f with
    | none => refuse s .badField
    | some e => if laneFieldsIn f && neighboursGood l e then taken (setEntry s l (some e)) else refuse s .badField

/-- WRITE LANE naming a defined lane (R6, R8, R9): SUSPECT is cleared, and opening a CLOSED lane in OPEN or CLOSED is a
capacity-freed event. -/
def updateLane (s : State) (l : Lane) (e : LaneEntry) (f : LaneFields) : Answer :=
  if !inSetup s && carriesGeometry f then refuse s .wrongState
  else
    let n := updatedEntry e f
    if laneFieldsIn f && neighboursGood l n then
      { st := setSuspect (setEntry s l (some n)) l false, code := .ok, body := .empty
        after := if !inSetup s && e.admin == .closed && n.admin == .opened then .freed else .nothing }
    else refuse s .badField

/-- WRITE LANE in mode WRITE (R5, R6): a lane outside the range is NO_SUCH. -/
def actWriteLane (l : Lane) (f : LaneFields) (s : State) : Answer :=
  match slotOf s l with
  | none => refuse s .noSuch
  | some x =>
    match x.entry with
    | none => defineLane s l f
    | some e => updateLane s l e f

/-- WRITE_LANE (R6). -/
def execWriteLane (q : ReqHead) (l : Lane) (f : LaneFields) (s : State) : Host.Outcome State Fault Refusal :=
  .next (serve q (.writeLane l f) (actWriteLane l f) s)

/-- WRITE LANE in mode UNDEFINE (R7). -/
def actUndefineLane (l : Lane) (s : State) : Answer :=
  if !inRange s l then refuse s .noSuch
  else if !inSetup s then refuse s .wrongState
  else taken (setEntry s l none)

/-- WRITE_LANE_UNDEFINE (R7). -/
def execWriteLaneUndefine (q : ReqHead) (l : Lane) (s : State) : Host.Outcome State Fault Refusal :=
  .next (serve q (.undefineLane l) (actUndefineLane l) s)

/-! ## WRITE DECK (R10, R11) -/

/-- A deck's mass limit is written. -/
def setDeck (s : State) (deck limit : Nat) : State := { s with decks := Table.put deck limit s.decks }

/-- WRITE DECK in mode WRITE (R10 in SETUP, R11 in OPEN or CLOSED). -/
def actWriteDeck (deck limit : Nat) (s : State) : Answer :=
  if deck < 1 ∨ 8 < deck then refuse s .badField
  else
    match Table.find s.decks deck with
    | some _ => if 1000000 < limit then refuse s .badField else taken (setDeck s deck limit)
    | none =>
      if !inSetup s then refuse s .wrongState
      else if 1000000 < limit then refuse s .badField
      else if Config.deckCapacity ≤ s.decks.length then refuse s .full
      else taken (setDeck s deck limit)

/-- WRITE_DECK (R10). -/
def execWriteDeck (q : ReqHead) (deck limit : Nat) (s : State) : Host.Outcome State Fault Refusal :=
  .next (serve q (.writeDeck deck limit) (actWriteDeck deck limit) s)

/-- WRITE DECK in mode REMOVE (R10): a deck number outside 1..8 is BAD_FIELD ahead of the rest (R2; R1, test 1). An absent
deck is NO_SUCH ahead of WRONG_STATE, by the order of R1 (log 11 names both choices). -/
def actRemoveDeck (deck : Nat) (s : State) : Answer :=
  if deck < 1 ∨ 8 < deck then refuse s .badField
  else
    match Table.find s.decks deck with
    | none => refuse s .noSuch
    | some _ => if !inSetup s then refuse s .wrongState else taken { s with decks := Table.drop deck s.decks }

/-- WRITE_DECK_REMOVE (R10). -/
def execWriteDeckRemove (q : ReqHead) (deck : Nat) (s : State) : Host.Outcome State Fault Refusal :=
  .next (serve q (.removeDeck deck) (actRemoveDeck deck) s)

/-! ## WRITE SECTION (R12, R13) -/

/-- A lane list of 1 to 8 distinct lanes (R12). -/
def laneListGood (l : List Lane) : Bool := decide (1 ≤ l.length) && decide (l.length ≤ 8) && decide l.Nodup

/-- No hoist lane of the request is a hoist lane of another defined section (R12). -/
def hoistLanesFree (s : State) (id : Nat) (hoist : List Lane) : Bool :=
  s.sections.all fun e => e.1 == id || hoist.all fun l => !e.2.hoist.contains l

/-- The values of a WRITE SECTION are good (R12). -/
def sectionGood (s : State) (id : Nat) (hoist covered : List Lane) (reduced : Nat) (travel : Option Nat) : Bool :=
  laneListGood hoist && laneListGood covered && (hoist.all fun l => !covered.contains l) && hoistLanesFree s id hoist
    && decide (150 ≤ reduced) && decide (reduced ≤ 600) && natIn 10 600 travel

/-- The section is defined and not STOWED (R12, R13). -/
def sectionMoving (s : State) (id : Nat) : Bool :=
  match Table.find s.sections id with
  | none => false
  | some e => e.state != .stowed

/-- WRITE SECTION in mode WRITE (R12): an id above 5 is BAD_FIELD ahead of the rest (R1, test 1). -/
def actWriteSection (id : Nat) (hoist covered : List Lane) (reduced : Nat) (travel : Option Nat) (s : State) : Answer :=
  if 5 < id then refuse s .badField
  else if !inSetup s || sectionMoving s id then refuse s .wrongState
  else if !sectionGood s id hoist covered reduced travel then refuse s .badField
  else
    taken
      (setSection s id
        { hoist := hoist, covered := covered, reduced := reduced, travel := travel.getD 120, state := .stowed, timer := none })

/-- WRITE_SECTION (R12). -/
def execWriteSection (q : ReqHead) (id : Nat) (hoist covered : List Lane) (reduced : Nat) (travel : Option Nat) (s : State) :
    Host.Outcome State Fault Refusal :=
  .next (serve q (.writeSection id hoist covered reduced travel) (actWriteSection id hoist covered reduced travel) s)

/-- WRITE SECTION in mode REMOVE (R13). -/
def actRemoveSection (id : Nat) (s : State) : Answer :=
  if 5 < id then refuse s .badField
  else if !inSetup s || sectionMoving s id then refuse s .wrongState
  else taken { s with sections := Table.drop id s.sections }

/-- WRITE_SECTION_REMOVE (R13). -/
def execWriteSectionRemove (q : ReqHead) (id : Nat) (s : State) : Host.Outcome State Fault Refusal :=
  .next (serve q (.removeSection id) (actRemoveSection id) s)

/-! ## WRITE SEGREGATION (R14) -/

/-- A triple's classes lie in 1..15 and its code in 0..4. -/
def tripleGood (t : Nat × Nat × Nat) : Bool :=
  decide (1 ≤ t.1) && decide (t.1 ≤ 15) && decide (1 ≤ t.2.1) && decide (t.2.1 ≤ 15) && decide (t.2.2 ≤ 4)

/-- One triple written: the entries for (c, d) and (d, c). -/
def applyTriple (m : List (Nat × SegCode)) (t : Nat × Nat × Nat) : List (Nat × SegCode) :=
  let code := (segOfCode t.2.2).getD .none
  segPut (segKey t.2.1 t.1) code (segPut (segKey t.1 t.2.1) code m)

/-- WRITE SEGREGATION (R14): 1 to 16 triples, applied in list order. -/
def actWriteSegregation (triples : List (Nat × Nat × Nat)) (s : State) : Answer :=
  if !inSetup s then refuse s .wrongState
  else if triples.isEmpty || decide (16 < triples.length) || !triples.all tripleGood then refuse s .badField
  else taken { s with segregation := triples.foldl applyTriple s.segregation }

/-- WRITE_SEGREGATION (R14). -/
def execWriteSegregation (q : ReqHead) (triples : List (Nat × Nat × Nat)) (s : State) : Host.Outcome State Fault Refusal :=
  .next (serve q (.writeSegregation triples) (actWriteSegregation triples) s)

/-! ## WRITE LIMITS, WRITE POLICY, WRITE GAPS, WRITE DEFAULT UNIT (R15 to R19) -/

/-- The limits with the fields carried written. -/
def updatedLimits (l : Limits) (hLim tMin tMax : Option Int) : Limits :=
  { hLim := written hLim l.hLim, tMin := written tMin l.tMin, tMax := written tMax l.tMax }

/-- WRITE LIMITS (R15, R16). -/
def actWriteLimits (hLim tMin tMax : Option Int) (s : State) : Answer :=
  let n := updatedLimits s.limits hLim tMin tMax
  if !intIn 1 1000000000 hLim || !intIn (-2147483647) 2147483647 tMin || !intIn (-2147483647) 2147483647 tMax
      || !decide (n.tMin < n.tMax) then refuse s .badField
  else
    let s1 := { s with limits := n }
    taken (if inSetup s then s1 else testStability s1)

/-- WRITE_LIMITS (R15). -/
def execWriteLimits (q : ReqHead) (hLim tMin tMax : Option Int) (s : State) : Host.Outcome State Fault Refusal :=
  .next (serve q (.writeLimits hLim tMin tMax) (actWriteLimits hLim tMin tMax) s)

/-- A value clamped into a range. -/
def clampNat (lo hi n : Nat) : Nat := max lo (min hi n)

/-- The policy with the fields carried written, the two timeouts clamped (R17). -/
def updatedPolicy (p : Policy) (f : PolicyFields) : Policy :=
  { wH := written f.wH p.wH, wF := written f.wF p.wF, wO := written f.wO p.wO
    pEmpty := written (f.pEmpty.map BitVec.toNat) p.pEmpty
    offerTimeout := written (f.offerTimeout.map fun b => clampNat 5 255 b.toNat) p.offerTimeout
    resTimeout := written (f.resTimeout.map fun b => clampNat 30 3600 b.toNat) p.resTimeout }

/-- WRITE POLICY (R17): the reply shows the two timeouts as recorded. -/
def actWritePolicy (f : PolicyFields) (s : State) : Answer :=
  if !natIn 0 7 f.wH || !natIn 0 7 f.wF || !natIn 0 7 f.wO then refuse s .badField
  else
    let p := updatedPolicy s.policy f
    answer { s with policy := p } (.timeouts p.offerTimeout p.resTimeout)

/-- WRITE_POLICY (R17). -/
def execWritePolicy (q : ReqHead) (f : PolicyFields) (s : State) : Host.Outcome State Fault Refusal :=
  .next (serve q (.writePolicy f) (actWritePolicy f) s)

/-- Every gap carried lies in 0..30 (R18). -/
def gapsIn (g : PerKind (Option Nat)) : Bool :=
  natIn 0 30 g.car && natIn 0 30 g.van && natIn 0 30 g.truck && natIn 0 30 g.artic && natIn 0 30 g.trailer
    && natIn 0 30 g.project

/-- The gaps with the ones carried written. -/
def updatedGaps (p : PerKind Nat) (g : PerKind (Option Nat)) : PerKind Nat :=
  { car := written g.car p.car, van := written g.van p.van, truck := written g.truck p.truck
    artic := written g.artic p.artic, trailer := written g.trailer p.trailer, project := written g.project p.project }

/-- WRITE GAPS (R18). Outside SETUP it is WRONG_STATE by R18 even where it carries no gap, although R2 takes a request that writes
nothing with OK (log 34, DESIGN CHOICE). -/
def actWriteGaps (g : PerKind (Option Nat)) (s : State) : Answer :=
  if !inSetup s then refuse s .wrongState
  else if !gapsIn g then refuse s .badField
  else taken { s with gaps := updatedGaps s.gaps g }

/-- WRITE_GAPS (R18). -/
def execWriteGaps (q : ReqHead) (g : PerKind (Option Nat)) (s : State) : Host.Outcome State Fault Refusal :=
  .next (serve q (.writeGaps g) (actWriteGaps g) s)

/-- WRITE DEFAULT UNIT (R19): long form alone, every field in range, the mark not stored. A short form outside SETUP is
WRONG_STATE, by the order of R1, and not BAD_FIELD (log 23). -/
def actWriteDefaultUnit (d : Desc) (s : State) : Answer :=
  if !inSetup s then refuse s .wrongState
  else if !descIsLong d then refuse s .badField
  else
    match descExactUnit d with
    | none => refuse s .badField
    | some u => taken { s with defaultUnit := { u with mark := 0 } }

/-- WRITE_DEFAULT_UNIT (R19). -/
def execWriteDefaultUnit (q : ReqHead) (d : Desc) (s : State) : Host.Outcome State Fault Refusal :=
  .next (serve q (.writeDefaultUnit d) (actWriteDefaultUnit d) s)

/-! ## READ PROFILE (R20) -/

/-- The fifteen codes for (c, 1) to (c, 15). -/
def segRow (s : State) (c : Nat) : List SegCode := (List.range 15).map fun i => segGet s c (i + 1)

/-- A section as its reply shows it (Table 1.9). -/
def sectionView (e : SectionEntry) : SectionView :=
  { hoist := e.hoist, covered := e.covered, reduced := e.reduced, travel := e.travel, state := e.state }

/-- READ PROFILE (R20, Table 1.9). -/
def actReadProfile (item : ProfileItem) (s : State) : Answer :=
  match item with
  | .summary =>
    answer s
      (.profileSummary s.rangeBase s.lanes.length (definedLanes s).length (s.decks.map Prod.fst) (s.sections.map Prod.fst))
  | .lane l => if inRange s l then answer s (.profileLane (entryOf s l)) else refuse s .noSuch
  | .deck n =>
    if n < 1 ∨ 8 < n then refuse s .badField
    else
      match Table.find s.decks n with
      | none => refuse s .noSuch
      | some limit => answer s (.profileDeck n limit)
  | .hoistSection id => if 5 < id then refuse s .badField else answer s (.profileSection ((Table.find s.sections id).map sectionView))
  | .segregation c => if c < 1 ∨ 15 < c then refuse s .badField else answer s (.profileSegregation (segRow s c))
  | .limits => answer s (.profileLimits s.limits)
  | .policy => answer s (.profilePolicy s.policy s.gaps)
  | .defaultUnit => answer s (.profileDefault (descOfUnit s.defaultUnit 0))
  | .other _ => refuse s .badField

/-- READ_PROFILE (R20). -/
def execReadProfile (q : ReqHead) (item : ProfileItem) (s : State) : Host.Outcome State Fault Refusal :=
  .next (serve q (.readProfile item) (actReadProfile item) s)

end Sys2Proof.Machine
end

