-- ==== Sys2Proof/Machine/StowReads.lean ====
section
/-! DEFINITION. Reading the Stow Map (section 2.8 of chapter 2): READ_UNIT, READ_LANE and READ_STOW_SUMMARY. -/

namespace Sys2Proof.Machine

/-! ## READ UNIT (R47) -/

/-- A listed record's place in its lane, counted from 1 at the forward stop; a FREE or LEFT record has none. -/
def placeOf (s : State) (h : Handle) : Option Nat :=
  match (getRec s h).lane with
  | none => none
  | some l =>
    if isLive (getRec s h).state then ((occupantsOf s l).findIdx? (· == h)).map (· + 1) else none

/-- The reply of a read by handle (R47). -/
def unitReply (s : State) (h : Handle) (trial : Option Handle) : Answer :=
  answer s (.unitRecord h (getRec s h) (placeOf s h) trial)

/-- READ UNIT by mark (R47): the holder, or else the TRIAL record, or else the latest LEFT record. -/
def readMark (s : State) (m : Mark) : Answer :=
  match findHolder s m, findTrial s m, findLeft s m with
  | some h, t, _ => unitReply s h t
  | none, some t, _ => unitReply s t none
  | none, none, some h => unitReply s h none
  | none, none, none => refuse s .noSuch

/-- READ UNIT (R47). -/
def actReadUnit (key : UnitKey) (s : State) : Answer :=
  match key with
  | .handle h => if Config.unitRecords ≤ h then refuse s .badField else unitReply s h none
  | .mark m => readMark s m

/-- READ_UNIT (R47). -/
def execReadUnit (q : ReqHead) (key : UnitKey) (s : State) : Host.Outcome State Fault Refusal :=
  .next (serve q (.readUnit key) (actReadUnit key) s)

/-! ## READ LANE (R48) -/

/-- One occupant as the reply shows it. -/
def occupantView (s : State) (place : Nat) (h : Handle) : OccupantView :=
  let r := getRec s h
  { place := place, handle := h, state := r.state, rank := recRank r, offset := recOffset r, length := recLength r }

/-- Up to six occupants, from a start place on. -/
def occupantViews (s : State) (start : Nat) (o : List Handle) : List OccupantView :=
  ((o.drop (start - 1)).take 6).mapIdx fun i h => occupantView s (start + i) h

/-- A defined lane as the reply shows it (R48). -/
def laneView (s : State) (l : Lane) (e : LaneEntry) (start : Nat) : LaneView :=
  { lane := l, count := (occupantsOf s l).length
    projFill := projFill s l, commFill := commFill s l, projMass := projMass s l, commMass := commMass s l
    plugsUsed := plugsUsed s l, tailRank := tailRank s l
    suspect := ((slotOf s l).map LaneSlot.suspect).getD false
    held := hoistHeld s l, clearance := effectiveClearance s l e.clearance
    occupants := occupantViews s start (occupantsOf s l) }

/-- READ LANE: NO_SUCH, BAD_FIELD, or taken (R48). Where the lane lies outside the range and the start place outside 1..40,
NO_SUCH comes first; where the lane is an undefined one of the range and the start place outside 1..40, BAD_FIELD does
(log 24, DESIGN CHOICE). -/
def actReadLane (l : Lane) (start : Nat) (s : State) : Answer :=
  if !inRange s l then refuse s .noSuch
  else if start < 1 ∨ 40 < start then refuse s .badField
  else
    match entryOf s l with
    | none => answer s .laneUndefined
    | some e => answer s (.laneView (laneView s l e start))

/-- READ_LANE (R48). -/
def execReadLane (q : ReqHead) (l : Lane) (start : Nat) (s : State) : Host.Outcome State Fault Refusal :=
  .next (serve q (.readLane l start) (actReadLane l start) s)

/-! ## READ STOW SUMMARY (R49) -/

/-- The lanes of the range whose SUSPECT flag is true, ascending. -/
def suspectLanes (s : State) : List Lane := ((laneSlots s).filter fun x => x.2.suspect).map Prod.fst

/-- The summary (R49). FREE records are the handles the table does not list. -/
def stowSummary (s : State) : StowSummary :=
  { free := Config.unitRecords - s.records.length
    offered := countState s .offered, trial := countState s .trial, reserved := countState s .reserved
    aboard := countState s .aboard, left := countState s .left
    general := generalAvailable s
    heelOffset := s.heelOffset, trimOffset := s.trimOffset
    projHeel := projHeel s, projTrim := projTrim s, commHeel := commHeel s, commTrim := commTrim s
    decks := s.decks.map fun d => (d.1, projDeckMass s d.1, commDeckMass s d.1)
    suspects := (suspectLanes s).take 16, suspectCount := (suspectLanes s).length }

/-- READ STOW SUMMARY is never refused (R49). -/
def actReadStowSummary (s : State) : Answer := answer s (.stowSummary (stowSummary s))

/-- READ_STOW_SUMMARY (R49). -/
def execReadStowSummary (q : ReqHead) (s : State) : Host.Outcome State Fault Refusal :=
  .next (serve q .readStowSummary actReadStowSummary s)

end Sys2Proof.Machine
end

