-- ==== Sys2Proof/Machine/Tally.lean ====
section
/-! DEFINITION. Tally reconciliation (chapter 6): TALLY_ON and TALLY_OFF at one engine. -/

namespace Sys2Proof.Machine

/-- What an engine's step on a tally comes to: the state, whether it sets PLACED or REMOVED, whether a unit record changed
or UNRECORDED was logged (R118), and whether it is a capacity-freed event. -/
structure TallyResult where
  st : State
  marks : Bool
  changed : Bool
  freed : Bool
  deriving DecidableEq, Repr

/-- The engine takes no action (Table 6.2). -/
def noTally (s : State) : TallyResult := { st := s, marks := false, changed := false, freed := false }

/-- A unit recorded ABOARD in a lane of the range. -/
def recorded (s : State) : TallyResult := { st := s, marks := true, changed := true, freed := false }

/-- The last ABOARD occupant of a lane: the occupant directly ahead of a unit about to be placed aboard (R120). -/
def lastAboard (s : State) (l : Lane) : Option Handle := (aboardPart s (occupantsOf s l)).getLast?

/-- LIMIT with the set of failed checks, where it is not empty (R121, R125, R128). -/
def postLimit (s : State) (m : Mark) (l : Lane) (failed : List Check) : State :=
  if failed.isEmpty then s else post s .limit (some m) (some l) none (some (.checks failed))

/-- ORDER, where the occupant ahead has a lower rank (R120). -/
def postOrder (s : State) (m : Mark) (l : Lane) (rank : Nat) (ahead : Option UnitRec) : State :=
  match ahead with
  | none => s
  | some a => if recRank a < rank then post s .order (some m) (some l) (some (recMark a)) none else s

/-- HOIST_MOVING, where the lane is hoist-held, with the lowest holding section (R120). -/
def postMoving (s : State) (m : Mark) (l : Lane) : State :=
  match holders s l with
  | [] => s
  | id :: _ => post s .hoistMoving (some m) (some l) none (some (.hoistSection id))

/-- The judgement after a unit is listed ABOARD (R120): order, hoist, stability. `ahead` is the occupant directly ahead. -/
def judge (s : State) (m : Mark) (l : Lane) (rank : Nat) (ahead : Option UnitRec) : State :=
  testStability (postMoving (postOrder s m l rank ahead) m l)

/-- The record directly ahead of a unit about to be placed aboard. -/
def aheadRec (s : State) (l : Lane) : Option UnitRec := (lastAboard s l).map (getRec s)

/-- A tally that cannot be recorded (R129). -/
def unrecorded (s : State) (m : Mark) (l : Lane) : TallyResult :=
  { st := raiseNotice (setSuspect (post s .unrecorded (some m) (some l) none none) l true) .suspectLane
    marks := true, changed := true, freed := false }

/-- Lane `l` can take the unit (R129): defined and listable, with fewer than 40 occupants, the unit's own record not
counted where it is listed there. -/
def canTake (s : State) (l : Lane) (own : Option Handle) : Bool :=
  listable s l && decide (((occupantsOf s l).filter fun h => some h != own).length < Config.laneCapacity)

/-- EXIT_ORDER, where ABOARD occupants stand aft of the unit (R125, R126, R133); `before` is the state before the exit. -/
def postExitOrder (before s : State) (h : Handle) (m : Mark) : State :=
  if aboardAft before h then post s .exitOrder (some m) (getRec before h).lane none none else s

/-! ## Actions of a TALLY-ON (Table 6.2) -/

/-- Commit (R119): the reservation is promoted in its own lane. -/
def tallyCommit (s : State) (m : Mark) (l : Lane) (h : Handle) : TallyResult :=
  let s1 := promote { s with reservations := s.reservations.filter (· != h) } h l
  recorded (judge s1 m l (recRank (getRec s h)) (aheadRec s l))

/-- Move (R121): a reservation tallied in another lane of the range. -/
def tallyMove (s : State) (m : Mark) (l : Lane) (h : Handle) : TallyResult :=
  if canTake s l (some h) then
    let s1 := unlist { s with reservations := s.reservations.filter (· != h) } h
    let failed := match (getRec s h).desc with
      | none => []
      | some u => forcedFailures s1 l u
    let s2 := listBehindAboard s1 h l
    let s3 := postLimit (post s2 .wrongLane (some m) (some l) none none) m l failed
    recorded (judge s3 m l (recRank (getRec s h)) (aheadRec s1 l))
  else unrecorded s m l

/-- A reservation tallied outside the range (R122): freed, a capacity-freed event. -/
def tallyElsewhere (s : State) (h : Handle) : TallyResult :=
  { st := dropReservation s h, marks := false, changed := true, freed := true }

/-- Conversion of an offer (R123). -/
def tallyConvert (s : State) (m : Mark) (l : Lane) (h : Handle) : TallyResult :=
  if canTake s l (some h) then
    let s1 := unlist { s with offers := s.offers.filter (· != h) } h
    let s2 := setRec s1 h { getRec s1 h with forced := true }
    let s3 := post (listBehindAboard s2 h l) .forced (some m) (some l) none none
    recorded (judge s3 m l (recRank (getRec s h)) (aheadRec s1 l))
  else unrecorded s m l

/-- A repeat (R124). -/
def tallyRepeat (s : State) : TallyResult := { st := s, marks := true, changed := false, freed := false }

/-- RECORDS_LOW of a tally whose forced allocation is refused, whether or not its lane test fails too: both tests are made
(R26, R125, R127, R129; log 15). -/
def refusedForced (s : State) : State := if forcedAvailable s then s else raiseNotice s .recordsLow

/-- A restow within the engine (R125). -/
def tallyRestow (s : State) (m : Mark) (l : Lane) (h : Handle) : TallyResult :=
  if canTake s l none && forcedAvailable s then
    match allocate s with
    | none => unrecorded s m l
    | some (n, s1) =>
      let old := getRec s h
      let s2 := setRec s1 n
        { freeRecord with state := .aboard, desc := old.desc, forced := old.forced, defaulted := old.defaulted, changed := true }
      let s3 := makeLeft s2 h
      let failed := match old.desc with
        | none => []
        | some u => forcedFailures s3 l u
      let s4 := listBehindAboard s3 n l
      let s5 := postExitOrder s (post s4 .restow (some m) (some l) none none) h m
      recorded (judge (postLimit s5 m l failed) m l (recRank old) (aheadRec s3 l))
  else unrecorded (refusedForced s) m l

/-- An ABOARD unit tallied outside the range (R126). -/
def tallyRestowElsewhere (s : State) (m : Mark) (l : Lane) (h : Handle) : TallyResult :=
  { st := postExitOrder s (post (makeLeft s h) .restow (some m) (some l) none none) h m
    marks := false, changed := true, freed := true }

/-- The description of a forced placement (R127): the frame's where it is valid, a height above 600 recorded as 600, or the
default unit with DEFAULTED. The mark is the frame's. -/
def forcedUnit (s : State) (m : Mark) (d : Option Desc) : UnitDesc × Bool :=
  match d.bind descUnit with
  | some u => ({ u with mark := m }, false)
  | none => ({ s.defaultUnit with mark := m }, true)

/-- A forced placement (R127, R128). -/
def tallyForced (s : State) (m : Mark) (l : Lane) (d : Option Desc) : TallyResult :=
  if canTake s l none && forcedAvailable s then
    match allocate s with
    | none => unrecorded s m l
    | some (n, s1) =>
      let u := (forcedUnit s m d).1
      let failed := forcedFailures s1 l u
      let s2 := setRec s1 n { newRecord u .aboard with forced := true, defaulted := (forcedUnit s m d).2 }
      let s3 := listBehindAboard s2 n l
      let s4 := postLimit (post s3 .forced (some m) (some l) none none) m l failed
      recorded (judge s4 m l u.rank (aheadRec s1 l))
  else unrecorded (refusedForced s) m l

/-- The action Table 6.2 selects (R117). -/
def tallyOnAction (s : State) (m : Mark) (l : Lane) (d : Option Desc) : TallyResult :=
  match findHolder s m with
  | none => if inRange s l then tallyForced s m l d else noTally s
  | some h =>
    match holderState (getRec s h).state with
    | some .reserved =>
      if !inRange s l then tallyElsewhere s h
      else if (getRec s h).lane = some l then tallyCommit s m l h
      else tallyMove s m l h
    | some .offered => if inRange s l then tallyConvert s m l h else noTally s
    | some .aboard =>
      if !inRange s l then tallyRestowElsewhere s m l h
      else if (getRec s h).lane = some l then tallyRepeat s
      else tallyRestow s m l h
    | none => noTally s

/-! ## Actions of a TALLY-OFF (R132) -/

/-- The ABOARD record of a mark leaves the ship (R132, R133). -/
def tallyOffAction (s : State) (m : Mark) : TallyResult :=
  match findHolder s m with
  | none => noTally s
  | some h =>
    if (getRec s h).state = .aboard then
      { st := postExitOrder s (makeLeft s h) h m, marks := true, changed := true, freed := true }
    else noTally s

/-! ## What every tally ends with -/

/-- TALLY_CLOSED, in CLOSED, for a tally that changed a record or logged UNRECORDED (R118, R134). -/
def postClosed (s : State) (m : Mark) (l : Lane) (changed : Bool) : State :=
  if s.voyage == .closed && changed then post s .tallyClosed (some m) (some l) none none else s

/-- Detection at a TAIL or SOLE: a frame whose flag is still clear is logged (R135). -/
def detect (s : State) (kind : ExcKind) (m : Mark) (l : Lane) (flag : Bool) : State :=
  if (s.role == .tail || s.role == .sole) && !flag then post s kind (some m) (some l) none none else s

/-- The capacity-freed event of a tally, the event's own work complete (R107). -/
def tallyFreed (s : State) (freed : Bool) : State := if freed then capacityFreed s else s

/-- The engine acts on a TALLY-ON (R116 to R118, R135). -/
def actTallyOn (m : Mark) (l : Lane) (d : Option Desc) (placed : Bool) (s : State) : State :=
  if s.voyage = .setup then passDown s (.tallyOn m l d placed)
  else
    let r := tallyOnAction s m l d
    let flag := placed || r.marks
    let s1 := detect (postClosed r.st m l r.changed) .unplaced m l flag
    tallyFreed (passDown s1 (.tallyOn m l d flag)) r.freed

/-- The engine acts on a TALLY-OFF (R116, R132, R134, R135). -/
def actTallyOff (m : Mark) (l : Lane) (removed : Bool) (s : State) : State :=
  if s.voyage = .setup then passDown s (.tallyOff m l removed)
  else
    let r := tallyOffAction s m
    let flag := removed || r.marks
    let s1 := detect (postClosed r.st m l r.changed) .unknownExit m l flag
    tallyFreed (passDown s1 (.tallyOff m l flag)) r.freed

/-- TALLY_ON (R117). -/
def execTallyOn (m : Mark) (l : Lane) (d : Option Desc) (placed : Bool) (s : State) : Host.Outcome State Fault Refusal :=
  .next (takeFrame .fwd (.tallyOn m l d placed) (fun _ => true) (actTallyOn m l d placed) s)

/-- TALLY_OFF (R132). -/
def execTallyOff (m : Mark) (l : Lane) (removed : Bool) (s : State) : Host.Outcome State Fault Refusal :=
  .next (takeFrame .fwd (.tallyOff m l removed) (fun _ => true) (actTallyOff m l removed) s)

end Sys2Proof.Machine
end

