-- ==== Sys2Proof/Machine/Trials.lean ====
section
/-! DEFINITION. EVALUATE (chapter 3), the trial stack's TRIAL, UNDO and COMMIT_TRIALS, and READ_HOLD_LIST (chapter 5). -/

namespace Sys2Proof.Machine

/-! ## EVALUATE (R71 to R73) -/

/-- EVALUATE naming a defined lane (R72). -/
def evaluateLane (s : State) (l : Lane) (e : LaneEntry) (u : UnitDesc) : Answer :=
  let p := tailPlacement s l e u
  let failed := tailFailures s l e u
  answer s
    (.evalLane l failed p.offset p.fillAfter p.hAfter p.tAfter (if failed.isEmpty then some (score s l e u) else none))

/-- EVALUATE naming no lane (R73). -/
def evaluateAll (s : State) (u : UnitDesc) : Answer :=
  let candidates := (definedLanes s).length
  let eligible := (eligibleLanes s u).length
  match bestLane s u with
  | none => answer s (.evalNone candidates eligible)
  | some b =>
    answer s (.evalBest candidates eligible b.lane b.score b.place.offset b.place.fillAfter b.place.hAfter b.place.tAfter)

/-- EVALUATE: NO_SUCH for a lane outside the range or undefined, then BAD_FIELD, or taken (R71). -/
def actEvaluate (d : Desc) (lane : Option Lane) (s : State) : Answer :=
  match lane with
  | none =>
    match descExactUnit d with
    | none => refuse s .badField
    | some u => evaluateAll s u
  | some l =>
    match entryOf s l with
    | none => refuse s .noSuch
    | some e =>
      match descExactUnit d with
      | none => refuse s .badField
      | some u => evaluateLane s l e u

/-- EVALUATE (R71). -/
def execEvaluate (q : ReqHead) (d : Desc) (lane : Option Lane) (s : State) : Host.Outcome State Fault Refusal :=
  .next (serve q (.evaluate d lane) (actEvaluate d lane) s)

/-! ## TRIAL (R112) -/

/-- The mark is held by a TRIAL record or by a holder (R112). -/
def markTaken (s : State) (m : Mark) : Bool := (findTrial s m).isSome || (findHolder s m).isSome

/-- A trial is placed in its best lane and pushed (R112). -/
def placeTrial (s : State) (u : UnitDesc) (b : Best) : Answer :=
  match allocate s with
  | none => refuse (raiseNotice s .recordsLow) .full
  | some (h, s1) =>
    let s2 := listAtTail (setRec s1 h (newRecord u .trial)) h b.lane
    let s3 := { s2 with trials := h :: s2.trials }
    answer s3 (.trialPlaced h b.lane b.place.offset b.score s3.trials.length)

/-- TRIAL: WRONG_STATE, BAD_FIELD, FULL, DUPLICATE, FULL with RECORDS_LOW, or taken (R112). -/
def actTrial (d : Desc) (s : State) : Answer :=
  if s.voyage ≠ .opened then refuse s .wrongState
  else
    match descExactUnit d with
    | none => refuse s .badField
    | some u =>
      if Config.trialCapacity ≤ s.trials.length then refuse s .full
      else if markTaken s u.mark then refuse s .duplicate
      else if !generalAvailable s then refuse (raiseNotice s .recordsLow) .full
      else
        match bestLane s u with
        | none => answer s .trialNone
        | some b => placeTrial s u b

/-- TRIAL (R112). -/
def execTrial (q : ReqHead) (d : Desc) (s : State) : Host.Outcome State Fault Refusal :=
  .next (serve q (.trial d) (actTrial d) s)

/-! ## UNDO (R113) -/

/-- UNDO: the top trial is popped, unlisted and freed: a capacity-freed event (R113). -/
def actUndo (s : State) : Answer :=
  match s.trials with
  | [] => refuse s .noSuch
  | h :: t =>
    { st := freeRec { s with trials := t } h, code := .ok
      body := .undone h (recMark (getRec s h)) t.length, after := .freed }

/-- UNDO (R113). -/
def execUndo (q : ReqHead) (s : State) : Host.Outcome State Fault Refusal := .next (serve q .undo actUndo s)

/-! ## COMMIT TRIALS (R114) -/

/-- A trial is discarded rather than converted (R114). -/
def trialDiscarded (s : State) (h : Handle) : Bool :=
  (findHolder s (recMark (getRec s h))).isSome || hoistLaneUp s (recLane (getRec s h))

/-- What a COMMIT TRIALS has come to so far. -/
structure Committed where
  st : State
  converted : Nat
  discarded : Nat
  deriving DecidableEq, Repr

/-- Trials taken one after another, each discarded or made RESERVED in place (R44, R98, R114). -/
def commitEach : List Handle → Committed → Committed
  | [], c => c
  | h :: t, c =>
    commitEach t
      (if trialDiscarded c.st h then { c with st := freeRec c.st h, discarded := c.discarded + 1 }
        else { c with st := makeReserved c.st h, converted := c.converted + 1 })

/-- COMMIT TRIALS: FULL past 64, or every trial taken from the bottom of the stack up (R114). -/
def actCommitTrials (s : State) : Answer :=
  if Config.commitmentCapacity < s.offers.length + s.reservations.length + s.trials.length then refuse s .full
  else
    let c := commitEach s.trials.reverse { st := { s with trials := [] }, converted := 0, discarded := 0 }
    { st := c.st, code := .ok, body := .committed c.converted c.discarded
      after := if 0 < c.discarded then .freed else .nothing }

/-- COMMIT_TRIALS (R114). -/
def execCommitTrials (q : ReqHead) (s : State) : Host.Outcome State Fault Refusal :=
  .next (serve q .commitTrials actCommitTrials s)

/-! ## READ HOLD LIST (R110) -/

/-- One entry as the reply shows it. -/
def holdView (place : Nat) (e : HoldEntry) : HoldView :=
  { place := place, mark := descMark e.desc, kind := descKind e.desc, rank := descRank e.desc, reason := e.reason
    heldSince := e.heldSince, retries := e.retries }

/-- Up to four entries, from a start place on. -/
def holdViews (start : Nat) (l : List HoldEntry) : List HoldView :=
  ((l.drop (start - 1)).take 4).mapIdx fun i e => holdView (start + i) e

/-- READ HOLD LIST: WRONG_ROLE, BAD_FIELD, or taken (R110). At a MID or TAIL a start place outside 1..32 is WRONG_ROLE as
well: the role comes first (log 25). -/
def actReadHoldList (start : Nat) (s : State) : Answer :=
  if s.role = .mid ∨ s.role = .tail then refuse s .wrongRole
  else if start < 1 ∨ 32 < start then refuse s .badField
  else answer s (.holdList s.holds.length (holdViews start s.holds))

/-- READ_HOLD_LIST (R110). -/
def execReadHoldList (q : ReqHead) (start : Nat) (s : State) : Host.Outcome State Fault Refusal :=
  .next (serve q (.readHoldList start) (actReadHoldList start) s)

end Sys2Proof.Machine
end

