-- ==== Sys2Proof/Machine/VoyageControl.lean ====
section
/-! DEFINITION. Voyage Control's addressed requests (chapter 8): OPEN_VOYAGE, CLEAR_VOYAGE, BALLAST and READ_VOYAGE. -/

namespace Sys2Proof.Machine

/-! ## OPEN VOYAGE (R151, R152) -/

/-- A fault of the profile: table, index and name (Table 8.2). -/
structure ProfileError where
  table : ProfileTable
  index : Nat
  fault : ProfileFault
  deriving DecidableEq, Repr

/-- A neighbour is absent, or a defined lane of the range. -/
def neighbourDefined (s : State) (n : Option Lane) : Bool :=
  match n with
  | none => true
  | some l => (entryOf s l).isSome

/-- Tests 2 to 5 on one defined lane, in order (Table 8.2). -/
def laneError (s : State) (l : Lane) (e : LaneEntry) : Option ProfileError :=
  if (Table.find s.decks e.deck).isNone then some ⟨.lane, l, .deckMissing⟩
  else if e.stopArm - (e.usable : Int) < -1500 then some ⟨.lane, l, .stopArm⟩
  else if !neighbourDefined s e.port then some ⟨.lane, l, .portNeighbour⟩
  else if !neighbourDefined s e.starboard then some ⟨.lane, l, .starboardNeighbour⟩
  else none

/-- Every lane of a list is a defined lane of the range. -/
def lanesDefined (s : State) (ls : List Lane) : Bool := ls.all fun l => (entryOf s l).isSome

/-- Tests 6 and 7 on one defined section (Table 8.2), both of them before the next section's (log 26). -/
def sectionError (s : State) (id : Nat) (e : SectionEntry) : Option ProfileError :=
  if !lanesDefined s e.hoist then some ⟨.sections, id, .hoistLane⟩
  else if !lanesDefined s e.covered then some ⟨.sections, id, .coveredLane⟩
  else none

/-- The first fault of the profile: test 1, then lane by lane ascending, then section by section (R152). -/
def profileError (s : State) : Option ProfileError :=
  if (definedLanes s).isEmpty then some ⟨.range, s.lanes.length, .noLaneDefined⟩
  else
    match (definedLanes s).findSome? fun x => laneError s x.1 x.2 with
    | some e => some e
    | none => s.sections.findSome? fun x => sectionError s x.1 x.2

/-- OPEN VOYAGE: WRONG_STATE, PROFILE_BAD with the first fault, or OPEN (R151). -/
def actOpenVoyage (s : State) : Answer :=
  if s.voyage ≠ .setup then refuse s .wrongState
  else
    match profileError s with
    | some e => { st := s, code := .profileBad, body := .profileBad e.table e.index e.fault, after := .nothing }
    | none => answer { s with voyage := .opened } .empty

/-- OPEN_VOYAGE (R151). -/
def execOpenVoyage (q : ReqHead) (s : State) : Host.Outcome State Fault Refusal :=
  .next (serve q .openVoyage actOpenVoyage s)

/-! ## CLEAR VOYAGE (R156, R158) -/

/-- A lane slot with its entry alone kept. -/
def clearedSlot (x : LaneSlot) : LaneSlot := { entry := x.entry, occupants := [], suspect := false }

/-- A section STOWED with its travel timer stopped (R140, R158). -/
def clearedSection (e : SectionEntry) : SectionEntry := { e with state := .stowed, timer := none }

/-- The second step, the report apart (R158). -/
def clearedState (s : State) : State :=
  { s with
    records := [], departures := [], lanes := s.lanes.map clearedSlot
    offers := [], reservations := [], trials := [], holds := []
    heelOffset := 0, trimOffset := 0
    sections := s.sections.map fun e => (e.1, clearedSection e.2)
    pendingClear := false, voyage := .setup }

/-- The second step (R158): cargo forgotten, profile kept, the report abandoned (R173). Which of REPLY and REPORT ABORTED
joins the queue first is left open: `Config.abortedAheadOfReply` (log 10). -/
def clearSecond (s : State) : Answer :=
  let s1 := abandonQuietly (clearedState s)
  if Config.abortedAheadOfReply then answer (emitAllRet (abortedFrames s) s1) .empty
  else { st := s1, code := .ok, body := .empty, after := .frames (abortedFrames s) }

/-- CLEAR VOYAGE by voyage state and pending-clear (R156). -/
def actClearVoyage (s : State) : Answer :=
  if s.voyage = .setup then answer s .empty
  else if s.pendingClear then clearSecond s
  else { st := { s with pendingClear := true }, code := .pending, body := .empty, after := .nothing }

/-- CLEAR_VOYAGE (R156): taken by the engine it names; alone among the addressed requests it leaves pending-clear to its own
rule (R157). -/
def execClearVoyage (q : ReqHead) (s : State) : Host.Outcome State Fault Refusal :=
  .next (takeFrame .fwd (.request q .clearVoyage) (isTarget q) (fun t => finish q (actClearVoyage t)) s)

/-! ## BALLAST (R162) -/

/-- A ballast offset clamped to one thousand million either way (R162). -/
def clampOffset (v : BitVec 32) : Int := max (-1000000000) (min 1000000000 v.toInt)

/-- BALLAST: WRONG_STATE in SETUP, or taken: a capacity-freed event (R162). -/
def actBallast (heel trim : BitVec 32) (s : State) : Answer :=
  if s.voyage = .setup then refuse s .wrongState
  else
    let s1 := testStability { s with heelOffset := clampOffset heel, trimOffset := clampOffset trim }
    { st := s1, code := .ok, body := .ballast s1.heelOffset s1.trimOffset (projHeel s1) (projTrim s1), after := .freed }

/-- BALLAST (R162). -/
def execBallast (q : ReqHead) (heel trim : BitVec 32) (s : State) : Host.Outcome State Fault Refusal :=
  .next (serve q (.ballast heel trim) (actBallast heel trim) s)

/-! ## READ VOYAGE (R163) -/

/-- The voyage state as the reply shows it, pending-clear as it stood when the request arrived (R163). -/
def voyageView (s : State) : VoyageView :=
  { role := s.role, position := s.position, voyage := s.voyage, pendingClear := s.pendingClear, clock := s.stowClock
    heelOffset := s.heelOffset, trimOffset := s.trimOffset, projHeel := projHeel s, projTrim := projTrim s
    heelOut := heelOut s.limits (projHeel s), trimOut := trimOut s.limits (projTrim s) }

/-- READ VOYAGE is never refused (R163). -/
def actReadVoyage (s : State) : Answer := answer s (.voyage (voyageView s))

/-- READ_VOYAGE (R163). -/
def execReadVoyage (q : ReqHead) (s : State) : Host.Outcome State Fault Refusal :=
  .next (serve q .readVoyage actReadVoyage s)

end Sys2Proof.Machine
end

