-- ==== Sys2Proof/Machine/Dispatch.lean ====
section
/-! DEFINITION. One arm per command of the table, each one direct call of its meaning. -/

namespace Sys2Proof.Machine

def exec (i : Instr) (s : State) : Host.Outcome State Fault Refusal :=
  match i with
  | .powerOn roleStraps posStraps => Sys2Proof.Machine.execPowerOn roleStraps posStraps s
  | .resetAssert => Sys2Proof.Machine.execResetAssert s
  | .stowClockTick => Sys2Proof.Machine.execStowClockTick s
  | .offerDeadline h => Sys2Proof.Machine.execOfferDeadline h s
  | .reservationLapse h => Sys2Proof.Machine.execReservationLapse h s
  | .travelTimerExpiry id => Sys2Proof.Machine.execTravelTimerExpiry id s
  | .reportTimerExpiry => Sys2Proof.Machine.execReportTimerExpiry s
  | .frameArrival p wire f => Sys2Proof.Machine.execFrameArrival p wire f s
  | .arbiterSend o heldOff => Sys2Proof.Machine.execArbiterSend o heldOff s
  | .passThrough p f => Sys2Proof.Machine.execPassThrough p f s
  | .checkIn c => Sys2Proof.Machine.execCheckIn c s
  | .confirm c => Sys2Proof.Machine.execConfirm c s
  | .freed pos => Sys2Proof.Machine.execFreed pos s
  | .tallyOn mark lane desc placed => Sys2Proof.Machine.execTallyOn mark lane desc placed s
  | .tallyOff mark lane removed => Sys2Proof.Machine.execTallyOff mark lane removed s
  | .hoistStatusDown target id => Sys2Proof.Machine.execHoistStatusDown target id s
  | .hoistStatusUp target id => Sys2Proof.Machine.execHoistStatusUp target id s
  | .trailer serial count => Sys2Proof.Machine.execTrailer serial count s
  | .reportToken t => Sys2Proof.Machine.execReportToken t s
  | .laneMask lanes action => Sys2Proof.Machine.execLaneMask lanes action s
  | .abort => Sys2Proof.Machine.execAbort s
  | .sealOrder => Sys2Proof.Machine.execSealOrder s
  | .unsealOrder advance => Sys2Proof.Machine.execUnseal advance s
  | .cancel mark => Sys2Proof.Machine.execCancel mark s
  | .clock value => Sys2Proof.Machine.execClock value s
  | .identify => Sys2Proof.Machine.execIdentify s
  | .requestPassedOn q body => Sys2Proof.Machine.execRequestPassedOn q body s
  | .noEngineReply q body => Sys2Proof.Machine.execNoEngineReply q body s
  | .unknownRequest q kind body => Sys2Proof.Machine.execUnknownRequest q kind body s
  | .writeRange q base count => Sys2Proof.Machine.execWriteRange q base count s
  | .writeLane q lane fields => Sys2Proof.Machine.execWriteLane q lane fields s
  | .writeLaneUndefine q lane => Sys2Proof.Machine.execWriteLaneUndefine q lane s
  | .writeDeck q deck limit => Sys2Proof.Machine.execWriteDeck q deck limit s
  | .writeDeckRemove q deck => Sys2Proof.Machine.execWriteDeckRemove q deck s
  | .writeSection q id hoist covered reduced travel => Sys2Proof.Machine.execWriteSection q id hoist covered reduced travel s
  | .writeSectionRemove q id => Sys2Proof.Machine.execWriteSectionRemove q id s
  | .writeSegregation q triples => Sys2Proof.Machine.execWriteSegregation q triples s
  | .writeLimits q hLim tMin tMax => Sys2Proof.Machine.execWriteLimits q hLim tMin tMax s
  | .writePolicy q fields => Sys2Proof.Machine.execWritePolicy q fields s
  | .writeGaps q gaps => Sys2Proof.Machine.execWriteGaps q gaps s
  | .writeDefaultUnit q desc => Sys2Proof.Machine.execWriteDefaultUnit q desc s
  | .readProfile q item => Sys2Proof.Machine.execReadProfile q item s
  | .readUnit q key => Sys2Proof.Machine.execReadUnit q key s
  | .readLane q lane start => Sys2Proof.Machine.execReadLane q lane start s
  | .readStowSummary q => Sys2Proof.Machine.execReadStowSummary q s
  | .evaluate q desc lane => Sys2Proof.Machine.execEvaluate q desc lane s
  | .trial q desc => Sys2Proof.Machine.execTrial q desc s
  | .undo q => Sys2Proof.Machine.execUndo q s
  | .commitTrials q => Sys2Proof.Machine.execCommitTrials q s
  | .readHoldList q start => Sys2Proof.Machine.execReadHoldList q start s
  | .deploy q id => Sys2Proof.Machine.execDeploy q id s
  | .stow q id => Sys2Proof.Machine.execStow q id s
  | .openVoyage q => Sys2Proof.Machine.execOpenVoyage q s
  | .clearVoyage q => Sys2Proof.Machine.execClearVoyage q s
  | .ballast q heel trim => Sys2Proof.Machine.execBallast q heel trim s
  | .readVoyage q => Sys2Proof.Machine.execReadVoyage q s
  | .report q criterion => Sys2Proof.Machine.execReport q criterion s
  | .drainLog q count => Sys2Proof.Machine.execDrainLog q count s
  | .ackNotices q flags => Sys2Proof.Machine.execAckNotices q flags s
  | .setEnables q enables => Sys2Proof.Machine.execSetEnables q enables s

end Sys2Proof.Machine
end

