-- ==== Sys2Proof/Safety.lean ====
section
/-! DEFINITION. The terms claims use: when a frame is about to be taken, what a plain answer to a request leaves, what "the
rest of the state stands" means for the groups of state, and the conditions that every step keeps. -/

namespace Sys2Proof.Machine

/-! ## Taking a frame -/

/-- Frame `f` is the next the engine takes from input `p`: out of reset, intake open (R186), `f` first in line (R183). -/
abbrev Ready (p : InPort) (f : Frame) (s : State) : Prop :=
  s.inReset = false ∧ intakeOpen s = true ∧ (rxQueue s p).head? = some f

/-- A request of this body, addressed to this engine, is the next frame taken from forward in (R188). -/
abbrev Addressed (q : ReqHead) (body : ReqBody) (s : State) : Prop :=
  Ready .fwd (.request q body) s ∧ q.target = s.position

/-- The state with the first frame of an input's queue taken off it, and nothing else changed. -/
def took (p : InPort) (s : State) : State := setRxQueue s (rxQueue s p).tail p

/-- A request taken and answered by one REPLY, pending-clear cleared (R157, R188), and nothing else changed. -/
def replied (q : ReqHead) (code : ReplyCode) (body : ReplyBody) (s : State) : State :=
  { s with
    rxFwd := s.rxFwd.tail, pendingClear := false
    origRet := s.origRet ++ [.reply q.tag s.position code body] }

/-- The input and the frame of a command that takes a frame from a receive queue. -/
def commandFrame : Instr → Option (InPort × Frame)
  | .powerOn _ _ => none
  | .resetAssert => none
  | .stowClockTick => none
  | .offerDeadline _ => none
  | .reservationLapse _ => none
  | .travelTimerExpiry _ => none
  | .reportTimerExpiry => none
  | .frameArrival _ _ _ => none
  | .arbiterSend _ _ => none
  | .passThrough p f => some (p, f)
  | .checkIn c => some (.fwd, .checkIn c)
  | .confirm c => some (.ret, .confirm c)
  | .freed pos => some (.ret, .freed pos)
  | .tallyOn mark lane desc placed => some (.fwd, .tallyOn mark lane desc placed)
  | .tallyOff mark lane removed => some (.fwd, .tallyOff mark lane removed)
  | .hoistStatusDown target id => some (.fwd, .hoistStatus target id true)
  | .hoistStatusUp target id => some (.fwd, .hoistStatus target id false)
  | .trailer serial count => some (.ret, .trailer serial count)
  | .reportToken t => some (.fwd, .reportToken t)
  | .laneMask lanes action => some (.fwd, .laneMask lanes action)
  | .abort => some (.fwd, .abort)
  | .sealOrder => some (.fwd, .sealOrder)
  | .unsealOrder advance => some (.fwd, .unsealOrder advance)
  | .cancel mark => some (.fwd, .cancel mark)
  | .clock value => some (.fwd, .clock value)
  | .identify => some (.fwd, .identify)
  | .requestPassedOn q body => some (.fwd, .request q body)
  | .noEngineReply q body => some (.fwd, .request q body)
  | .unknownRequest q kind body => some (.fwd, .request q (.malformed kind body))
  | .writeRange q base count => some (.fwd, .request q (.writeRange base count))
  | .writeLane q lane fields => some (.fwd, .request q (.writeLane lane fields))
  | .writeLaneUndefine q lane => some (.fwd, .request q (.undefineLane lane))
  | .writeDeck q deck limit => some (.fwd, .request q (.writeDeck deck limit))
  | .writeDeckRemove q deck => some (.fwd, .request q (.removeDeck deck))
  | .writeSection q id hoist covered reduced travel =>
    some (.fwd, .request q (.writeSection id hoist covered reduced travel))
  | .writeSectionRemove q id => some (.fwd, .request q (.removeSection id))
  | .writeSegregation q triples => some (.fwd, .request q (.writeSegregation triples))
  | .writeLimits q hLim tMin tMax => some (.fwd, .request q (.writeLimits hLim tMin tMax))
  | .writePolicy q fields => some (.fwd, .request q (.writePolicy fields))
  | .writeGaps q gaps => some (.fwd, .request q (.writeGaps gaps))
  | .writeDefaultUnit q desc => some (.fwd, .request q (.writeDefaultUnit desc))
  | .readProfile q item => some (.fwd, .request q (.readProfile item))
  | .readUnit q key => some (.fwd, .request q (.readUnit key))
  | .readLane q lane start => some (.fwd, .request q (.readLane lane start))
  | .readStowSummary q => some (.fwd, .request q .readStowSummary)
  | .evaluate q desc lane => some (.fwd, .request q (.evaluate desc lane))
  | .trial q desc => some (.fwd, .request q (.trial desc))
  | .undo q => some (.fwd, .request q .undo)
  | .commitTrials q => some (.fwd, .request q .commitTrials)
  | .readHoldList q start => some (.fwd, .request q (.readHoldList start))
  | .deploy q id => some (.fwd, .request q (.deploy id))
  | .stow q id => some (.fwd, .request q (.stow id))
  | .openVoyage q => some (.fwd, .request q .openVoyage)
  | .clearVoyage q => some (.fwd, .request q .clearVoyage)
  | .ballast q heel trim => some (.fwd, .request q (.ballast heel trim))
  | .readVoyage q => some (.fwd, .request q .readVoyage)
  | .report q criterion => some (.fwd, .request q (.report criterion))
  | .drainLog q count => some (.fwd, .request q (.drainLog count))
  | .ackNotices q flags => some (.fwd, .request q (.ackNotices flags))
  | .setEnables q enables => some (.fwd, .request q (.setEnables enables))

/-! ## What stands -/

/-- The lane entries and the SUSPECT flags stand; only occupant lists may differ. -/
def SameEntries (s t : State) : Prop :=
  t.rangeBase = s.rangeBase
    ∧ t.lanes.map (fun x => (x.entry, x.suspect)) = s.lanes.map (fun x => (x.entry, x.suspect))

/-- Occupants stand packed one behind another from an aft end on (R32). -/
def packedBehind (s : State) (aft : Option Nat) : List Handle → Bool
  | [] => true
  | h :: t =>
    decide ((getRec s h).offset = some (offsetBehind s aft (recKind (getRec s h))))
      && packedBehind s (some (recAft (getRec s h))) t

/-! ## Conditions that every step keeps -/

/-- The laws of a hold list: at most 32 entries, no two of one mark, and every retry count in 0..14 (R106). -/
abbrev HoldsLawful (l : List HoldEntry) : Prop :=
  l.length ≤ Config.holdCapacity ∧ (l.map fun e => descMark e.desc).Nodup ∧ ∀ e ∈ l, e.retries < Config.retryLimit

/-- The sizes of Table 1.1 and of the rules: lane range (R3), deck table (R10), receive queues (R183), exception log (R176),
trial stack (R111); and the laws of the hold list (R106). -/
structure WithinSizes (s : State) : Prop where
  lanes : s.lanes.length ≤ Config.rangeCapacity
  decks : s.decks.length ≤ Config.deckCapacity
  rxFwd : s.rxFwd.length ≤ Config.rxCapacity
  rxRet : s.rxRet.length ≤ Config.rxCapacity
  log : s.log.length ≤ Config.logCapacity
  holds : HoldsLawful s.holds
  trials : s.trials.length ≤ Config.trialCapacity

/-- While armed is set, no enabled flag is set (R179). -/
def ArmedQuiet (s : State) : Prop := s.armed = true → noticeAny (noticeAnd s.notices s.enables) = false

/-- The unit table, the deck table, the section table and the segregation matrix are in canonical form: keys strictly
rising, section ids at most 5, no FREE record and no NONE entry listed; and every handle held anywhere is below 512. -/
structure TablesCanonical (s : State) : Prop where
  records : Table.rising s.records = true
  decks : Table.rising s.decks = true
  sections : Table.rising s.sections = true
  segregation : Table.rising s.segregation = true
  ids : ∀ e ∈ s.sections, e.1 ≤ 5
  listed : ∀ e ∈ s.records, e.2 ≠ freeRecord
  codes : ∀ e ∈ s.segregation, e.2 ≠ .none
  handles : ∀ e ∈ s.records, e.1 < Config.unitRecords
  occupants : ∀ x ∈ s.lanes, ∀ h ∈ x.occupants, h < Config.unitRecords
  departures : ∀ h ∈ s.departures, h < Config.unitRecords
  offers : ∀ h ∈ s.offers, h < Config.unitRecords
  reservations : ∀ h ∈ s.reservations, h < Config.unitRecords
  trials : ∀ h ∈ s.trials, h < Config.unitRecords

/-- Outside OPEN there is no offer, no reservation, no trial and no hold-list entry (R111, R150, R153); in SETUP every record is
FREE, nothing has departed and every lane list is empty (R150), and pending-clear is clear (R156); a MID or TAIL holds no
hold-list entry (R106). -/
structure VoyageConsistent (s : State) : Prop where
  offers : s.voyage ≠ .opened → s.offers = []
  reservations : s.voyage ≠ .opened → s.reservations = []
  trials : s.voyage ≠ .opened → s.trials = []
  holds : s.voyage ≠ .opened → s.holds = []
  holder : s.role = .mid ∨ s.role = .tail → s.holds = []
  pendingClear : s.voyage = .setup → s.pendingClear = false
  records : s.voyage = .setup → s.records = []
  departures : s.voyage = .setup → s.departures = []
  lanes : s.voyage = .setup → ∀ x ∈ s.lanes, x.occupants = []

/-- The Stow Map and the lists agree: every live record has a lane and is listed there, once, and no other record is listed
(R29); in each list the ABOARD occupants stand ahead of the pending ones (R29); the offer list (R86), the reservation list
(R97), the trial stack (R111) and the order of departure (R27) hold exactly the records in those states, once each. -/
structure MapAgrees (s : State) : Prop where
  listed : ∀ l h, h ∈ occupantsOf s l ↔ isLive (getRec s h).state = true ∧ (getRec s h).lane = some l
  placed : ∀ h, isLive (getRec s h).state = true → (getRec s h).lane ≠ none
  once : ∀ l, (occupantsOf s l).Nodup
  order : ∀ l, occupantsOf s l = aboardPart s (occupantsOf s l) ++ pendingPart s (occupantsOf s l)
  offered : ∀ h, h ∈ s.offers ↔ (getRec s h).state = .offered
  reserved : ∀ h, h ∈ s.reservations ↔ (getRec s h).state = .reserved
  trial : ∀ h, h ∈ s.trials ↔ (getRec s h).state = .trial
  left : ∀ h, h ∈ s.departures ↔ (getRec s h).state = .left
  distinct : s.offers.Nodup ∧ s.reservations.Nodup ∧ s.trials.Nodup ∧ s.departures.Nodup

/-- No lane lists more than 40 occupants (R29), and the offers, and offers and reservations together, are within 8 and 64
(R84). -/
structure WithinRooms (s : State) : Prop where
  occupants : ∀ l, (occupantsOf s l).length ≤ Config.laneCapacity
  offers : s.offers.length ≤ Config.offerCapacity
  commitments : s.offers.length + s.reservations.length ≤ Config.commitmentCapacity

/-- In every lane the pending part stands packed behind the ABOARD part, one gap behind another, or from the forward stop where
no unit is ABOARD (R30, R32). -/
def PendingPacked (s : State) : Prop :=
  ∀ l, packedBehind s (aftOf s (aboardPart s (occupantsOf s l))) (pendingPart s (occupantsOf s l)) = true

/-- The ticks a reservation has left. -/
def ticksLeft (s : State) (h : Handle) : Nat := (getRec s h).deadline.getD 0

/-- The reservation list stands in order of deadline (R97). -/
def ReservationsInOrder (s : State) : Prop := s.reservations.Pairwise fun g h => ticksLeft s g ≤ ticksLeft s h

/-- A mark has one holder at most (R24). -/
def OneHolder (s : State) : Prop :=
  ∀ (m : Mark) (g h : Handle), isHolder (getRec s g).state = true → isHolder (getRec s h).state = true →
    recHasMark m (getRec s g) = true → recHasMark m (getRec s h) = true → g = h

/-- The segregation matrix is symmetric over the classes 1..15 (R14). -/
def SegregationSymmetric (s : State) : Prop :=
  ∀ c d, 1 ≤ c → c ≤ 15 → 1 ≤ d → d ≤ 15 → segGet s c d = segGet s d c

end Sys2Proof.Machine
end

