-- ==== Sys2Proof/WellFormed.lean ====
section
/-! DEFINITION. Which command terms can be carried at all: the widths of the frame fields that the manual gives and the
ranges of handles and section ids. `exec` is total and does not ask for it; a term outside it stands for no event. -/

namespace Sys2Proof

/-- A ship lane number as a frame carries it (0..255). -/
def laneWf (l : Lane) : Bool := decide (l < 256)

/-- A 16-bit figure. -/
def word16Wf (n : Nat) : Bool := decide (n < 65536)

/-- The bid block's fields fit Table 11.5. -/
def BidBlock.wf : BidBlock → Bool
  | .none => true
  | .bid score _ lane offset => word16Wf score && laneWf lane && word16Wf offset
  | .duplicate _ lane offset _ => laneWf lane && word16Wf offset
  | .invalid => true

/-- The retry count is 0..15 (Table 4.2). -/
def Retry.wf (r : Retry) : Bool := decide (r.count ≤ 15)

/-- The result's lane fits a frame. -/
def ConfirmResult.wf : ConfirmResult → Bool
  | .winner _ lane offset => laneWf lane && word16Wf offset
  | .none _ => true
  | .duplicate _ lane _ => laneWf lane
  | .invalid => true

/-- A unit table handle (0..511). -/
def handleWf (h : Handle) : Bool := decide (h < Config.unitRecords)

/-- A hoist section id (0..5). -/
def sectionIdWf (id : Nat) : Bool := decide (id ≤ 5)

/-- The section id of a frame, carried in a byte; ids above 5 are refused or ignored by rule. -/
def idByteWf (id : Nat) : Bool := decide (id < 256)

/-- The bytes of one arriving frame: at most 72 and a run-out (R182). -/
def wireWf (wire : List Byte) : Bool := decide (wire.length ≤ 255)

/-- Well-formed commands. -/
def Instr.wf : Instr → Bool
  | .powerOn _ _ | .resetAssert | .stowClockTick | .reportTimerExpiry => true
  | .offerDeadline h | .reservationLapse h => handleWf h
  | .travelTimerExpiry id => sectionIdWf id
  | .frameArrival _ wire _ => wireWf wire
  | .arbiterSend _ _ | .passThrough _ _ => true
  | .checkIn c => c.bid.wf && c.retry.wf
  | .confirm c => c.result.wf && c.retry.wf
  | .freed _ => true
  | .tallyOn _ lane _ _ | .tallyOff _ lane _ => laneWf lane
  | .hoistStatusDown _ id | .hoistStatusUp _ id => idByteWf id
  | .trailer _ _ | .reportToken _ => true
  | .laneMask _ _ | .abort | .sealOrder | .unsealOrder _ | .cancel _ | .clock _ | .identify => true
  | .requestPassedOn _ _ | .noEngineReply _ _ | .unknownRequest _ _ _ => true
  | .writeRange _ _ count => decide (1 ≤ count)
  | .writeLane _ _ _ | .writeLaneUndefine _ _ | .writeDeck _ _ _ | .writeDeckRemove _ _ => true
  | .writeSection _ _ hoist covered _ _ => hoist.all laneWf && covered.all laneWf
  | .writeSectionRemove _ _ => true
  | .writeSegregation _ triples => decide (1 ≤ triples.length) && decide (triples.length ≤ 16)
  | .writeLimits _ _ _ _ | .writePolicy _ _ | .writeGaps _ _ | .writeDefaultUnit _ _ => true
  | .readProfile _ _ | .readUnit _ _ | .readLane _ _ _ | .readStowSummary _ => true
  | .evaluate _ _ _ | .trial _ _ | .undo _ | .commitTrials _ | .readHoldList _ _ => true
  | .deploy _ id | .stow _ id => idByteWf id
  | .openVoyage _ | .clearVoyage _ | .ballast _ _ _ | .readVoyage _ => true
  | .report _ _ | .drainLog _ _ | .ackNotices _ _ | .setEnables _ _ => true

end Sys2Proof
end

