-- ==== Sys2Proof/Certificates/Slice0/Obligations.lean ====
section
/-! DEFINITION. The statements for the provers, one `def Obligations.<Name> : Prop` each. An equation `exec c s = .next t`
says both that the command completes and all that it leaves: what `t` does not name stands as it was. -/

open Sys2Proof Sys2Proof.Machine

/-! ## The block as a whole -/

/-- A step carries out the command at the front of the queue on the state with the queue's rest; with none waiting the block
idles (log 1). -/
def Obligations.StepTakesTheFront : Prop :=
  ∀ (c : Instr) (rest : List Instr) (s : State),
    (s.pending = c :: rest → step s = exec c { s with pending := rest }) ∧ (s.pending = [] → step s = .next s)

/-- No command ends in a fault or a refusal: what goes wrong is a REPLY outcome, an exception, a notice or a frame. No
command touches the queue of waiting commands, and none but POWER_ON changes the role or the position (R74). -/
def Obligations.EveryCommandAnswersInPlace : Prop :=
  (∀ (c : Instr) (s : State), ∃ t, exec c s = .next t)
    ∧ (∀ (c : Instr) (s t : State), exec c s = .next t →
        t.pending = s.pending
          ∧ ((∀ r p, c ≠ .powerOn r p) → t.role = s.role ∧ t.position = s.position))

/-- POWER_ON takes the role by Table 11.8 and the position from the straps, releases reset, and brings every table to its
power-on contents; `State.reset` is what it leaves for a SOLE engine at position 0 (log 2). That the pass-through frames are
gone too is log 28. -/
def Obligations.PowerOnContents : Prop :=
  ∀ (r p : BitVec 2) (s : State), ∃ t, exec (.powerOn r p) s = .next t
    ∧ (r = 0#2 → t.role = .sole) ∧ (r = 1#2 → t.role = .head) ∧ (r = 2#2 → t.role = .mid) ∧ (r = 3#2 → t.role = .tail)
    ∧ t.position = p ∧ t.inReset = false ∧ t.pending = s.pending
    ∧ t.rangeBase = 0 ∧ t.lanes = [] ∧ t.decks = [] ∧ t.sections = [] ∧ (∀ c d, segGet t c d = .none)
    ∧ t.limits = { hLim := 1, tMin := -1, tMax := 1 }
    ∧ t.policy = { wH := 4, wF := 2, wO := 3, pEmpty := 96, offerTimeout := 20, resTimeout := 600 }
    ∧ (∀ k, perKind t.gaps k = 5)
    ∧ t.defaultUnit = { mark := 0, kind := .trailer, length := 136, mass := 300, height := 410, rank := 1, hazard := none,
                        reefer := false }
    ∧ (∀ h, getRec t h = freeRecord) ∧ t.departures = [] ∧ t.offers = [] ∧ t.reservations = [] ∧ t.trials = []
    ∧ t.chainSeq = 0 ∧ t.holds = [] ∧ t.voyage = .setup ∧ t.pendingClear = false ∧ t.stowClock = 0
    ∧ t.heelOffset = 0 ∧ t.trimOffset = 0
    ∧ t.reportSerial = 0 ∧ t.reportState = .idle ∧ t.reportTimer = none ∧ t.report = none ∧ t.emitting = false
    ∧ t.buffer = [] ∧ t.heldToken = none
    ∧ t.log = [] ∧ t.nextExc = 0 ∧ noticeAny t.notices = false ∧ noticeAny t.enables = false ∧ t.armed = true
    ∧ t.rxFwd = [] ∧ t.rxRet = [] ∧ t.origFwd = [] ∧ t.origRet = [] ∧ t.passFwd = [] ∧ t.passRet = []
    ∧ arbiterChoice [.abort] [.abort] t.lastFwd = some .pass ∧ arbiterChoice [.abort] [.abort] t.lastRet = some .pass
    ∧ t.drivenFwd = none ∧ t.drivenRet = none
    ∧ ((r = 0#2 ∧ p = 0#2 ∧ s.pending = []) → t = State.reset)

/-- RESET_ASSERT: no frame is driven, both inputs hold off, and until POWER_ON no command changes anything (R192). -/
def Obligations.ResetHoldsTheEngine : Prop :=
  ∀ (s : State),
    exec .resetAssert s = .next { s with inReset := true, drivenFwd := none, drivenRet := none }
      ∧ (s.inReset = true → holdOff s .fwd = true ∧ holdOff s .ret = true)
      ∧ (s.inReset = true → ∀ c : Instr, (∀ r p, c ≠ .powerOn r p) → c ≠ .resetAssert → exec c s = .next s)

/-- STOW_CLOCK_TICK: the stow clock rises by one, and every running offer, reservation, travel and report count falls by
one, none below 0 (R161; log 13). In reset nothing counts (R192). -/
def Obligations.TickMovesEveryCount : Prop :=
  ∀ (s : State),
    exec .stowClockTick s = .next
      (if s.inReset = true then s
      else
        { s with
          stowClock := s.stowClock + 1
          records := s.records.map fun e => (e.1, { e.2 with deadline := e.2.deadline.map fun k => k - 1 })
          sections := s.sections.map fun e => (e.1, { e.2 with timer := e.2.timer.map fun k => k - 1 })
          reportTimer := s.reportTimer.map fun k => k - 1 })

/-- OFFER_DEADLINE: an OFFERED record of the offer list whose count is 0 leaves the list and is freed; nothing else changes:
no frame, no notice, no exception (R85). An expiry command of a count that has not run out does nothing, and a count at 0
waits for its command: log 13's choice. RESERVATION_LAPSE: the first member of the reservation list, in its order, whose
count is 0 leaves the list and is freed, LAPSE (TIMEOUT) goes down, LAPSED is set, and a capacity-freed event follows (R97,
R99); the command of any other record does nothing (log 13). -/
def Obligations.OffersAndReservationsExpire : Prop :=
  (∀ (h : Handle) (s : State), s.inReset = false →
      exec (.offerDeadline h) s = .next
        (if h ∈ s.offers ∧ (getRec s h).state = .offered ∧ (getRec s h).deadline = some 0 then
          freeRec { s with offers := s.offers.filter (· != h) } h
        else s))
    ∧ (∀ (h : Handle) (s : State), s.inReset = false →
        exec (.reservationLapse h) s = .next
          (if s.reservations.find? (fun g => (getRec s g).state == .reserved && (getRec s g).deadline == some 0) = some h then
            endEvent s
              (capacityFreed
                (raiseNotice
                  (emitFwd (freeRec { s with reservations := s.reservations.filter (· != h) } h)
                    (.lapse (recMark (getRec s h)) (recLane (getRec s h)) (getRec s h).sequence .timeout))
                  .lapsed))
          else s))

/-- TRAVEL_TIMER_EXPIRY: a moving section whose timer is 0 becomes FAULT, HOIST_TIMEOUT is posted with its id, and
HOIST_FAULT is set (R146). An expiry command of a timer that has not run out does nothing: log 13's choice.
REPORT_TIMER_EXPIRY: a HEAD in AWAITING whose timer is 0 emits REPORT ABORTED with the serial and becomes IDLE (R172; a
timer not at 0 as in log 13). The serial of the report in progress is the one State holds with its criterion, and where none
is held the serial last given out (R172, R173). -/
def Obligations.TravelAndReportTimersExpire : Prop :=
  (∀ (id : Nat) (s : State), s.inReset = false →
      exec (.travelTimerExpiry id) s = .next
        (match Table.find s.sections id with
        | none => s
        | some e =>
          if (e.state = .deploying ∨ e.state = .stowing) ∧ e.timer = some 0 then
            endEvent s
              (raiseNotice
                (post { s with sections := Table.put id { e with state := .fault, timer := none } s.sections }
                  .hoistTimeout none none none (some (.hoistSection id)))
                .hoistFault)
          else s))
    ∧ (∀ (s : State), s.inReset = false →
        exec .reportTimerExpiry s = .next
          (if s.role = .head ∧ s.reportState = .awaiting ∧ s.reportTimer = some 0 then
            { s with
              origRet := s.origRet ++ [.reportAborted (serialInProgress s)]
              reportState := .idle, reportTimer := none, report := none }
          else s))
    ∧ (∀ (s : State), (∀ n c, s.report = some (n, c) → serialInProgress s = n) ∧ (s.report = none → serialInProgress s = s.reportSerial))

/-! ## The link -/

/-- FRAME_ARRIVAL out of reset: nothing arrives on an input connected to nothing; bytes outside a frame change nothing; a
frame that fails a test is discarded with LINK_ERROR; one that passes joins the tail of the queue, or is lost with
LINK_ERROR in a full one (R183, R184). The tests of an arriving frame: bytes with no start delimiter lie outside a frame;
from the delimiter on, a frame fails where it has no length byte, a length byte below 8 or above 72, or fewer bytes than
that length, or where its last two bytes are not the check of its type, length and body; every other passes, bytes after it
left out of account (R182, R184). The check of some bytes starts at FFFF and takes each byte in its order, most significant
bit first, each bit by the polynomial x^16 + x^12 + x^5 + 1, with nothing reflected and nothing exclusive-ored into the
result (R182). Hold-off: a port signals it in reset and while its receive queue holds 16 frames, and at no other time (R183,
R192). Frames wait in line: a command whose frame is first in line while intake is closed changes nothing; behind another
frame its frame joins the tail of the queue, or is lost with LINK_ERROR in a full one; and a frame that completes on an
empty queue is taken as if it had stood there (R183, R186; log 8). -/
def Obligations.FramesArriveAndWaitInLine : Prop :=
  (∀ (p : InPort) (wire : List Byte) (f : Frame) (s : State), s.inReset = false →
      exec (.frameArrival p wire f) s = .next
        (if p = .ret ∧ (s.role = .tail ∨ s.role = .sole) then s
        else
          match testArrival wire with
          | .outside => s
          | .fails => endEvent s (raiseNotice s .linkError)
          | .passes =>
            if (rxQueue s p).length < 16 then setRxQueue s (rxQueue s p ++ [f]) p else endEvent s (raiseNotice s .linkError)))
    ∧ (∀ (junk rest body : List Byte) (type len : Byte), (∀ b ∈ junk, b ≠ 0x7E#8) →
        let n := len.toNat
        let wire := junk ++ 0x7E#8 :: type :: len :: body
        let inner := type :: len :: body.take (n - 5)
        let check := (body.drop (n - 5)).take 2
        testArrival junk = .outside
          ∧ (rest.length < 2 → testArrival (junk ++ 0x7E#8 :: rest) = .fails)
          ∧ ((n < 8 ∨ 72 < n ∨ body.length + 3 < n) → testArrival wire = .fails)
          ∧ (8 ≤ n → n ≤ 72 → n ≤ body.length + 3 → check = beBytes 2 (frameCheck inner).toNat → testArrival wire = .passes)
          ∧ (8 ≤ n → n ≤ 72 → n ≤ body.length + 3 → check ≠ beBytes 2 (frameCheck inner).toNat → testArrival wire = .fails))
    ∧ (frameCheck [] = 0xFFFF#16
        ∧ ∀ (l : List Byte) (b : Byte),
          frameCheck (l ++ [b]) = [7, 6, 5, 4, 3, 2, 1, 0].foldl
            (fun (c : BitVec 16) i => if c.msb ≠ b.getLsbD i then (c <<< 1) ^^^ BitVec.ofNat 16 (2 ^ 12 + 2 ^ 5 + 1) else c <<< 1) (frameCheck l))
    ∧ (∀ (s : State) (p : InPort),
        holdOff s p = true ↔ s.inReset = true
          ∨ 16 ≤ (match p with
            | .fwd => s.rxFwd.length
            | .ret => s.rxRet.length))
    ∧ (∀ (c : Instr) (p : InPort) (f g : Frame) (s : State), commandFrame c = some (p, f) → s.inReset = false →
        unconnected s p = false →
          ((rxQueue s p).head? = some f → intakeOpen s = false → exec c s = .next s)
            ∧ ((rxQueue s p).head? = some g → g ≠ f →
                exec c s = .next
                  (if (rxQueue s p).length < 16 then setRxQueue s (rxQueue s p ++ [f]) p
                  else endEvent s (raiseNotice s .linkError)))
            ∧ (rxQueue s p = [] → exec c s = exec c (setRxQueue s [f] p)))

/-- ARBITER_SEND on forward out, out of reset: held off, nothing leaves. Otherwise one frame leaves: the kind that waits, or
where both wait the kind not sent last (R186). ARBITER_SEND on return out: as on forward out, whatever the report does; the
departure of a TRAILER ends a SOLE engine's report, and a section frame moves nothing on while no section is being emitted
(R171, R186). -/
def Obligations.ArbitersAlternate : Prop :=
  (∀ (s : State), s.inReset = false →
      exec (.arbiterSend .fwd true) s = .next s
        ∧ (s.passFwd = [] → s.origFwd = [] → exec (.arbiterSend .fwd false) s = .next s)
        ∧ (∀ f t, s.passFwd = f :: t → (s.origFwd = [] ∨ s.lastFwd = .originated) →
            exec (.arbiterSend .fwd false) s
              = .next { s with passFwd := t, lastFwd := .pass, drivenFwd := some { frame := f, wire := frameWire f } })
        ∧ (∀ f t, s.origFwd = f :: t → (s.passFwd = [] ∨ s.lastFwd = .pass) →
            exec (.arbiterSend .fwd false) s
              = .next { s with origFwd := t, lastFwd := .originated, drivenFwd := some { frame := f, wire := frameWire f } }))
    ∧ (∀ (s : State), s.inReset = false →
        exec (.arbiterSend .ret true) s = .next s
          ∧ (s.passRet = [] → s.origRet = [] → exec (.arbiterSend .ret false) s = .next s)
          ∧ (∀ f t, s.passRet = f :: t → (s.origRet = [] ∨ s.lastRet = .originated) →
              exec (.arbiterSend .ret false) s
                = .next { s with passRet := t, lastRet := .pass, drivenRet := some { frame := f, wire := frameWire f } })
          ∧ (∀ f t, s.origRet = f :: t → (s.passRet = [] ∨ s.lastRet = .pass) →
              (s.emitting = false ∨ isSectionFrame f = false) →
              exec (.arbiterSend .ret false) s = .next
                (let u : State :=
                  { s with origRet := t, lastRet := .originated, drivenRet := some { frame := f, wire := frameWire f } }
                match f, s.role with
                | .trailer _ _, .sole => { u with reportState := .idle, reportTimer := none, report := none }
                | _, _ => u)))

/-- What a section lists, and in what order: lane by lane in ascending number, the listed occupants that meet the criterion,
forward to aft, then the lane's departed records that meet it, in the order of departure. Under CHANGED every LEFT record
listed is freed and every other has CHANGED cleared; nothing else changes but the report's own state, and under the other
criteria nothing else at all (R166, R167, R168). What a section's frames carry: the entry of a record (Table 9.2); in a
frame, an entry begins a run where it is the first or its lane is not that of the entry before; the header has serial,
position, entry count, the committed heel and trim, and each deck entry, in the deck table's ascending order, with its
committed mass, the figures being sums over the ABOARD occupants of the defined lanes (R33, R36, R38, R167, R170). The
departure of a section frame from return out, beside whatever pass-through frames wait, moves the section on: its next frame
takes its place with at most six entries (log 18), or, the buffer empty, the token goes down (HEAD, MID; a HEAD awaits for
100 ticks) or the TRAILER up (TAIL, SOLE) (R169, R171, R186). -/
def Obligations.SectionsAreComposedAndSent : Prop :=
  (∀ (s : State) (c : Criterion) (k : Token),
      let t := composeSection s c k
      let hs := sectionHandles s c
      let meets := fun h => match c with
        | .aboard => decide ((getRec s h).state = .aboard)
        | .plan => decide ((getRec s h).state = .aboard ∨ (getRec s h).state = .reserved)
        | .changed => (getRec s h).changed && decide ((getRec s h).state ≠ .free)
        | .rank n => decide ((getRec s h).state = .aboard ∧ recRank (getRec s h) = n)
      hs = ((laneSlots s).flatMap fun x =>
          x.2.occupants.filter meets
            ++ (s.departures.filter fun h => decide ((getRec s h).lane = some x.1)).filter meets)
        ∧ t.buffer = hs.map (fun h => entryOfRec (getRec s h))
        ∧ t.emitting = true ∧ t.heldToken = some k
        ∧ (c ≠ .changed → t = { s with buffer := t.buffer, emitting := true, heldToken := some k })
        ∧ (c = .changed →
            t = { s with
                  records := t.records, buffer := t.buffer, emitting := true, heldToken := some k
                  departures := s.departures.filter fun h => !decide (h ∈ hs ∧ (getRec s h).state = .left) })
        ∧ (c = .changed → ∀ h, h ∈ hs → (getRec s h).state = .left → getRec t h = freeRecord)
        ∧ (c = .changed → ∀ h, h ∈ hs → (getRec s h).state ≠ .left → getRec t h = { getRec s h with changed := false })
        ∧ (∀ h, h ∉ hs → getRec t h = getRec s h))
    ∧ (∀ (s : State) (serial : Byte) (count : Nat) (r : UnitRec) (u : UnitDesc) (es : List ReportEntry),
        let aboard := fun l => (occupantsOf s l).filter fun h => decide ((getRec s h).state = .aboard)
        let total := fun (f : LaneEntry → Handle → Int) =>
          ((definedLanes s).map fun x => ((aboard x.1).map (f x.2)).sum).sum
        let runs := markRuns none es
        (r.desc = some u → entryOfRec r =
            { mark := u.mark, kind := u.kind, rank := u.rank, state := r.state, lane := r.lane.getD 0, offset := r.offset
              mass := u.mass, forced := r.forced, defaulted := r.defaulted })
          ∧ runs.map Prod.snd = es
          ∧ (∀ (i : Nat) (b : Bool) (e : ReportEntry), runs[i]? = some (b, e) →
            (b = true ↔ i = 0 ∨ ∀ e', es[i - 1]? = some e' → e'.lane ≠ e.lane))
          ∧ sectionFrame s serial count = .sectionHeader serial s.position count
            (s.heelOffset + total fun e h => (recMass (getRec s h) : Int) * e.arm)
            (s.trimOffset + total fun _ h => (recMass (getRec s h) : Int) * (getRec s h).centre.getD 0)
            (s.decks.map fun d => (d.1,
              (((definedLanes s).filter fun x => x.2.deck == d.1).map fun x =>
                ((aboard x.1).map fun h => recMass (getRec s h)).sum).sum)))
    ∧ (∀ (s : State) (f : Frame) (t : List Frame) (k : Token), s.inReset = false → s.emitting = true → s.heldToken = some k →
        s.origRet = f :: t → (s.passRet = [] ∨ s.lastRet = .pass) → isSectionFrame f = true →
          exec (.arbiterSend .ret false) s = .next
            (let rest := match f with
              | .reportRecords _ _ _ => s.buffer.drop 6
              | _ => s.buffer
            let u : State :=
              { s with
                origRet := t, buffer := rest, lastRet := .originated
                drivenRet := some { frame := f, wire := frameWire f } }
            if rest = [] then
              match s.role with
              | .head =>
                { u with origFwd := u.origFwd ++ [.reportToken k], emitting := false, heldToken := none, reportState := .awaiting
                         reportTimer := some 100 }
              | .mid => { u with origFwd := u.origFwd ++ [.reportToken k], emitting := false, heldToken := none }
              | .tail => { u with origRet := t ++ [.trailer k.serial k.count], emitting := false, heldToken := none }
              | .sole => { u with origRet := t ++ [.trailer k.serial k.count], emitting := false, heldToken := none }
            else { u with origRet := t ++ [.reportRecords k.serial s.position (markRuns none (rest.take 6))] }))

/-- What an engine acts on: the frames of Table 11.1 that it acts on from forward in, and CONFIRM, FREED and TRAILER from
return in (R185). PASS_THROUGH: a frame first in line that the engine does not act on from its input leaves it unchanged on
the output of its direction (R185). A request for another position goes on down the forward path in a HEAD or MID, and is
answered NO_ENGINE with the position requested by a TAIL or SOLE; pending-clear stays (R188, R189). UNKNOWN_REQUEST:
answered BAD_FIELD, pending-clear cleared, nothing else changed (R188). -/
def Obligations.FramesNotForThisEngine : Prop :=
  (∀ (f : Frame),
      (actsOn .fwd f = match f with
        | .checkIn _ | .tallyOn _ _ _ _ | .tallyOff _ _ _ | .hoistStatus _ _ _ | .request _ _ | .laneMask _ _ | .abort
        | .sealOrder | .unsealOrder _ | .cancel _ | .clock _ | .identify | .reportToken _ => true
        | _ => false)
        ∧ (actsOn .ret f = match f with
          | .confirm _ | .freed _ | .trailer _ _ => true
          | _ => false))
    ∧ (∀ (p : InPort) (f : Frame) (s : State), Ready p f s → actsOn p f = false →
        exec (.passThrough p f) s = .next
          (match p with
          | .fwd => { s with rxFwd := s.rxFwd.tail, passFwd := s.passFwd ++ [f] }
          | .ret => { s with rxRet := s.rxRet.tail, passRet := s.passRet ++ [f] }))
    ∧ (∀ (q : ReqHead) (body : ReqBody) (s : State), Ready .fwd (.request q body) s → q.target ≠ s.position →
        ((s.role = .head ∨ s.role = .mid) →
            exec (.requestPassedOn q body) s
              = .next { s with rxFwd := s.rxFwd.tail, passFwd := s.passFwd ++ [.request q body] })
          ∧ ((s.role = .tail ∨ s.role = .sole) →
            exec (.noEngineReply q body) s
              = .next { s with
                  rxFwd := s.rxFwd.tail
                  origRet := s.origRet ++ [.reply q.tag s.position .noEngine (.target q.target)] }))
    ∧ (∀ (q : ReqHead) (kind : Byte) (body : List Byte) (s : State), Addressed q (.malformed kind body) s →
        exec (.unknownRequest q kind body) s = .next (replied q .badField .empty s))

/-! ## The bid chain -/

/-- CHECK_IN at a HEAD or SOLE engine that is not OPEN: SHUT OUT (NOT_OPEN) goes down in its place; nothing is stamped, bid
or held (R77). CHECK_IN otherwise, by role: a HEAD stamps, bids and forwards; a MID bids and forwards; a TAIL bids and
settles: the frame to the marshals goes down, its own CONFIRM step is carried out and the CONFIRM goes up; a SOLE engine
stamps, bids, settles and consumes the CONFIRM as a HEAD does, in the same event (R79, R80, R87, R95). -/
def Obligations.CheckInByRole : Prop :=
  (∀ (c : CheckIn) (s : State), Ready .fwd (.checkIn c) s → (s.role = .head ∨ s.role = .sole) → s.voyage ≠ .opened →
      exec (.checkIn c) s
        = .next { s with rxFwd := s.rxFwd.tail, origFwd := s.origFwd ++ [.shutOut (descMark c.desc) .notOpen] })
    ∧ (∀ (c : CheckIn) (s : State), Ready .fwd (.checkIn c) s →
        (s.role = .head → s.voyage = .opened →
            exec (.checkIn c) s = .next
              (endEvent s
                (let r := bidStep (stampState (took .fwd s) c) (stampFrame s c)
                passDown r.2 (.checkIn r.1))))
          ∧ (s.role = .mid →
            exec (.checkIn c) s = .next
              (endEvent s (passDown (bidStep (took .fwd s) c).2 (.checkIn (bidStep (took .fwd s) c).1))))
          ∧ (s.role = .tail →
            exec (.checkIn c) s = .next
              (endEvent s
                (let r := bidStep (took .fwd s) c
                let d := confirmStep { r.2 with origFwd := r.2.origFwd ++ (settleDown r.1).toList } (settleUp r.1)
                { d.2 with origRet := d.2.origRet ++ [.confirm d.1] })))
          ∧ (s.role = .sole → s.voyage = .opened →
            exec (.checkIn c) s = .next
              (endEvent s
                (let r := bidStep (stampState (took .fwd s) c) (stampFrame s c)
                let d := confirmStep { r.2 with origFwd := r.2.origFwd ++ (settleDown r.1).toList } (settleUp r.1)
                headConsume d.2 d.1))))

/-- The HEAD's stamp: the frame takes the counter's value and the counter advances by one; the height is clamped to 600 in
every check-in, an INVALID one too (log 16); a valid one has an empty bid block and no hold-list entry of its mark left, and
an invalid one is marked INVALID and leaves the hold list as it stands (R78, R79). What a description says: the faults of
R78 in both forms, the kinds each form may name, and the unit a description without a fault gives: a long form its fields,
with hazard 0 absent and a height above 600 clamped; a short form 20 + 2 × code dm, 5 × (code + 1) and 150 + 25 × code cm,
no hazard class, no reefer; the rank is the code plus one. Where a height above 600 is not taken, it gives no unit (R19,
R71, R78, R190). -/
def Obligations.StampAndValidate : Prop :=
  (∀ (c : CheckIn) (s : State),
      (stampFrame s c).sequence = s.chainSeq ∧ (stampFrame s c).retry = c.retry
        ∧ descMark (stampFrame s c).desc = descMark c.desc
        ∧ descHeight (stampFrame s c).desc = min (descHeight c.desc) 600
        ∧ (stampFrame s c).bid = (if descFaulty c.desc then .invalid else .none)
        ∧ (stampState s c).chainSeq = s.chainSeq + 1
        ∧ (descFaulty c.desc = true → (stampState s c).holds = s.holds)
        ∧ (descFaulty c.desc = false →
            ∀ e, e ∈ (stampState s c).holds ↔ e ∈ s.holds ∧ descMark e.desc ≠ descMark c.desc)
        ∧ stampState s c = { s with chainSeq := s.chainSeq + 1, holds := (stampState s c).holds })
    ∧ (let kinds : List UnitKind := [.car, .van, .truck, .artic, .trailer, .project]
      (∀ (k : BitVec 3) (r : Bool) (n : BitVec 3) (m : Mark) (l : Byte) (w h : BitVec 16) (z : Byte),
          let d : Desc := .long k r n m l w h z
          (descFaulty d = true ↔
              w.toNat < 5 ∨ 1200 < w.toNat ∨ l.toNat < 20 ∨ 250 < l.toNat ∨ h.toNat < 100 ∨ 6 ≤ k.toNat ∨ 15 < z.toNat)
            ∧ descKind d = kinds[k.toNat]? ∧ descMark d = m ∧ descRank d = n.toNat + 1 ∧ descHeight d = h.toNat
            ∧ descLength d = l.toNat ∧ descMass d = w.toNat ∧ descReefer d = r
            ∧ descHazard d = (if z.toNat = 0 then none else some z.toNat)
            ∧ (descFaulty d = true → descUnit d = none)
            ∧ (descFaulty d = false → ∀ kind, kinds[k.toNat]? = some kind →
              descUnit d = some
                { mark := m, kind := kind, length := l.toNat, mass := w.toNat, height := min h.toNat 600, rank := n.toNat + 1
                  hazard := (if z.toNat = 0 then none else some z.toNat), reefer := r })
            ∧ descExactUnit d = (if 600 < h.toNat then none else descUnit d))
        ∧ ∀ (k n : BitVec 3) (m : Mark) (l w : BitVec 6) (h : BitVec 3),
          let d : Desc := .short k n m l w h
          (descFaulty d = true ↔ 1 < k.toNat)
            ∧ descKind d = (kinds.take 2)[k.toNat]? ∧ descMark d = m ∧ descRank d = n.toNat + 1
            ∧ descHeight d = 150 + 25 * h.toNat ∧ descLength d = 20 + 2 * l.toNat ∧ descMass d = 5 * (w.toNat + 1)
            ∧ descReefer d = false ∧ descHazard d = none
            ∧ (descFaulty d = true → descUnit d = none)
            ∧ (∀ kind, (kinds.take 2)[k.toNat]? = some kind →
              descUnit d = some
                { mark := m, kind := kind, length := 20 + 2 * l.toNat, mass := 5 * (w.toNat + 1), height := 150 + 25 * h.toNat
                  rank := n.toNat + 1, hazard := none, reefer := false })
            ∧ descExactUnit d = descUnit d)

/-- The bid step passes the frame and changes nothing: outside OPEN, on status INVALID or DUPLICATE, and on a faulty or too
tall description (R80). The bid step goes on exactly in an engine in OPEN, on status NONE or BID, for a description with no
fault of R78 and a height of at most 600 (R80). The states of a holder are OFFERED, RESERVED and ABOARD (R81). The bid step
at an engine that holds the mark writes DUPLICATE with its position, the holder's lane, offset and state; a RESERVED
holder's deadline restarts, and nothing else changes (R81, R98). A full offer list, or 64 offers and reservations together,
keep the engine out of the bidding; while general allocation is available no notice is set (R82). -/
def Obligations.BidStepWithoutABid : Prop :=
  (∀ (c : CheckIn) (s : State),
      (s.voyage ≠ .opened ∨ c.bid = .invalid ∨ (∃ p l o st, c.bid = .duplicate p l o st) ∨ descFaulty c.desc = true
          ∨ 600 < descHeight c.desc) →
        bidStep s c = (c, s))
    ∧ ((∀ (c : CheckIn) (s : State),
          bidPasses s c = false ↔
            s.voyage = .opened ∧ (c.bid = .none ∨ ∃ sc p l o, c.bid = .bid sc p l o) ∧ descFaulty c.desc = false
              ∧ descHeight c.desc ≤ 600)
        ∧ ∀ (r : RecState) (st : HolderState),
          holderState r = some st ↔
            (r = .offered ∧ st = .offered) ∨ (r = .reserved ∧ st = .reserved) ∨ (r = .aboard ∧ st = .aboard))
    ∧ (∀ (c : CheckIn) (s : State) (h : Handle) (st : HolderState), bidPasses s c = false →
        findHolder s (descMark c.desc) = some h → holderState (getRec s h).state = some st →
          bidStep s c =
            ({ c with bid := .duplicate s.position ((getRec s h).lane.getD 0) ((getRec s h).offset.getD 0) (some st) },
              if st = .reserved then joinReservations s h else s))
    ∧ (∀ (c : CheckIn) (s : State), findHolder s (descMark c.desc) = none → liveCount s < 480 →
        (8 ≤ s.offers.length ∨ 64 ≤ s.offers.length + s.reservations.length) → bidStep s c = (c, s))

/-- The bid step of an engine without the mark: RECORDS_LOW and no bid where general allocation is refused (log 15); no bid
without room or a best lane; otherwise it bids exactly when its best score is strictly lower than the frame's bid, and
places an offer in its best lane (R82, R83, R84). Placing an offer: the record allocated becomes OFFERED with the frame's
description and sequence, the offer timeout as its count and CHANGED, is listed at the tail of the lane, and stands last in
the offer list (R84). -/
def Obligations.BidStepCompetes : Prop :=
  (∀ (c : CheckIn) (s : State) (u : UnitDesc), bidPasses s c = false → findHolder s (descMark c.desc) = none →
      descUnit c.desc = some u →
        bidStep s c =
          if 480 ≤ liveCount s then (c, raiseNotice s .recordsLow)
          else if 8 ≤ s.offers.length ∨ 64 ≤ s.offers.length + s.reservations.length then (c, s)
          else
            match bestLane s u, c.bid with
            | none, _ => (c, s)
            | some b, .bid sc _ _ _ =>
              if b.score < sc then
                ({ c with bid := .bid b.score s.position b.lane b.place.offset }, placeOffer s u c.sequence b.lane)
              else (c, s)
            | some b, _ => ({ c with bid := .bid b.score s.position b.lane b.place.offset }, placeOffer s u c.sequence b.lane))
    ∧ (∀ (s s1 : State) (u : UnitDesc) (n : Seq) (l : Lane) (h : Handle), allocate s = some (h, s1) →
        let r : UnitRec :=
          { freeRecord with
            state := .offered, desc := some u, sequence := some n, deadline := some s.policy.offerTimeout, changed := true }
        let t := placeOffer s u n l
        t = { listAtTail (setRec s1 h r) h l with offers := s.offers ++ [h] }
          ∧ (hasRoom s l = true → occupantsOf t l = occupantsOf s l ++ [h]
              ∧ getRec t h = { r with lane := some l, offset := (getRec t h).offset, centre := (getRec t h).centre }))

/-- The best lane is an eligible lane of least score, the lowest number among equals; there is none exactly where no defined
lane passes all fifteen checks (R67). The fifteen checks of a unit against a defined lane at a placement position, each as
its rule has it (R54 to R63). The tail position behind the last occupant, and the score there: offset, fill, centre arm and
moments after, and the three weighted terms (R52, R65, R66). -/
def Obligations.BestLaneIsLeast : Prop :=
  (∀ (s : State) (u : UnitDesc),
      (∀ b, bestLane s u = some b →
          ∃ e, (b.lane, e) ∈ definedLanes s ∧ (∀ k, checkPasses s b.lane e u (tailPlacement s b.lane e u) k = true)
            ∧ b.score = score s b.lane e u ∧ b.place = tailPlacement s b.lane e u
            ∧ ∀ l e', (l, e') ∈ definedLanes s → (∀ k, checkPasses s l e' u (tailPlacement s l e' u) k = true) →
                b.score < score s l e' u ∨ (b.score = score s l e' u ∧ b.lane ≤ l))
        ∧ (bestLane s u = none ↔
          ∀ l e, (l, e) ∈ definedLanes s → ∃ k, checkPasses s l e u (tailPlacement s l e u) k = false))
    ∧ (∀ (s : State) (l : Lane) (e : LaneEntry) (u : UnitDesc) (p : Placement),
        let ok := fun k => checkPasses s l e u p k = true
        let mass := fun m => ((occupantsOf s m).map fun h => recMass (getRec s h)).sum
        let dist := fun (t : Int) =>
          if t < s.limits.tMin then s.limits.tMin - t else if s.limits.tMax < t then t - s.limits.tMax else 0
        (ok .kind ↔ perKind e.kinds u.kind = true) ∧ (ok .closed ↔ e.admin = .opened)
          ∧ (ok .held ↔ ∀ x ∈ s.sections, (l ∈ x.2.hoist → x.2.state = .deployed)
              ∧ (l ∈ x.2.covered → x.2.state = .stowed ∨ x.2.state = .deployed))
          ∧ (ok .suspect ↔ ∀ x, slotOf s l = some x → x.suspect = false)
          ∧ (ok .count ↔ (occupantsOf s l).length < 40)
          ∧ (ok .height ↔ u.height ≤ e.clearance
              ∧ ∀ x ∈ s.sections, l ∈ x.2.covered → x.2.state ≠ .stowed → u.height ≤ x.2.reduced)
          ∧ (ok .unitMass ↔ u.mass ≤ e.unitMass) ∧ (ok .length ↔ p.fillAfter ≤ e.usable)
          ∧ (ok .laneMass ↔ mass l + u.mass ≤ e.laneMass)
          ∧ (ok .deckMass ↔ ∃ limit, Table.find s.decks e.deck = some limit
              ∧ (((definedLanes s).filter fun x => x.2.deck == e.deck).map fun x => mass x.1).sum + u.mass ≤ limit)
          ∧ (ok .plug ↔ (u.reefer = true → ((occupantsOf s l).filter fun h => recReefer (getRec s h)).length < e.plugs))
          ∧ (ok .order ↔ ∀ h, (occupantsOf s l).getLast? = some h → u.rank ≤ recRank (getRec s h))
          ∧ (ok .hazard ↔ ∀ c, u.hazard = some c → ∀ x ∈ laneSlots s, ∀ h ∈ x.2.occupants, ∀ d, recHazard (getRec s h) = some d →
              match segGet s c d with
              | .none => True
              | .notNeighbour => x.1 = l → p.fore ≠ some h ∧ p.aft ≠ some h
              | .notSameLane => x.1 ≠ l
              | .laneApart => x.1 ≠ l ∧ e.port ≠ some x.1 ∧ e.starboard ≠ some x.1
              | .deckApart => x.2.entry.map LaneEntry.deck ≠ some e.deck)
          ∧ (ok .heel ↔ (p.hAfter.natAbs : Int) ≤ s.limits.hLim ∨ p.hAfter.natAbs < (projHeel s).natAbs)
          ∧ (ok .trim ↔ (s.limits.tMin ≤ p.tAfter ∧ p.tAfter ≤ s.limits.tMax) ∨ dist p.tAfter < dist (projTrim s)))
    ∧ (∀ (s : State) (l : Lane) (e : LaneEntry) (u : UnitDesc),
        let p := tailPlacement s l e u
        p.offset = (match (occupantsOf s l).getLast? with
            | none => 0
            | some g => recAft (getRec s g) + perKind s.gaps u.kind)
          ∧ p.fillAfter = p.offset + u.length
          ∧ p.centre = max (-1500) (min 1500 (e.stopArm - (p.offset : Int) - (((u.length + 1) / 2 : Nat) : Int)))
          ∧ p.hAfter = projHeel s + (u.mass : Int) * e.arm ∧ p.tAfter = projTrim s + (u.mass : Int) * p.centre
          ∧ p.fore = (occupantsOf s l).getLast? ∧ p.aft = none
          ∧ score s l e u =
            s.policy.wH * min 255 (p.hAfter.natAbs * 255 / s.limits.hLim.toNat)
              + s.policy.wF * ((e.usable - p.fillAfter) * 255 / e.usable)
              + s.policy.wO * (match (occupantsOf s l).getLast? with
                | none => s.policy.pEmpty
                | some g => min 255 ((recRank (getRec s g) - u.rank) * 64)))

/-- Settlement of a check-in, by its bid status: the frame to the marshals and the CONFIRM's result (R87, R88). A duplicate
state of code 0, which Table 4.4 does not name, is settled by the row of one of the three states, left open which (log 35).
Settlement: the frame to the marshals, where there is one, goes down; the engine's own CONFIRM step is carried out on the
CONFIRM; and a TAIL sends the CONFIRM up, where a SOLE engine consumes it as a HEAD does (R87, R95). -/
def Obligations.SettlementFrames : Prop :=
  (∀ (d : Desc) (n : Seq) (r : Retry) (sc : Nat) (p : Pos) (l : Lane) (o : Nat),
      let at_ := fun b => ({ desc := d, sequence := n, retry := r, bid := b } : CheckIn)
      settleDown (at_ (.bid sc p l o)) = some (.assign (descMark d) l o (descRank d) n)
        ∧ settleDown (at_ .none) = (if r.set then none else some (.hold (descMark d) n .noLane))
        ∧ settleDown (at_ (.duplicate p l o (some .reserved))) = some (.assign (descMark d) l o (descRank d) n)
        ∧ settleDown (at_ (.duplicate p l o (some .aboard))) = some (.hold (descMark d) n .alreadyAboard)
        ∧ settleDown (at_ (.duplicate p l o (some .offered))) = none
        ∧ (∃ st : HolderState, settleDown (at_ (.duplicate p l o none)) = settleDown (at_ (.duplicate p l o (some st))))
        ∧ settleDown (at_ .invalid) = some (.hold (descMark d) n .invalid)
        ∧ (settleUp (at_ (.bid sc p l o))).result = .winner p l o
        ∧ (settleUp (at_ .none)).result = .none .noLane
        ∧ (∀ st, (settleUp (at_ (.duplicate p l o st))).result = .duplicate p l st)
        ∧ (settleUp (at_ .invalid)).result = .invalid
        ∧ ∀ b, (settleUp (at_ b)).desc = d ∧ (settleUp (at_ b)).sequence = n ∧ (settleUp (at_ b)).retry = r)
    ∧ (∀ (c : CheckIn) (s : State),
        let r := confirmStep { s with origFwd := s.origFwd ++ (settleDown c).toList } (settleUp c)
        settleTail s c = { r.2 with origRet := r.2.origRet ++ [.confirm r.1] } ∧ settleSole s c = headConsume r.2 r.1)

/-- CONFIRM: every engine carries out its CONFIRM step; a MID or TAIL passes the frame up with any rewrite, a HEAD or SOLE
consumes it (R89, R94). The CONFIRM step of an engine that is not the winner withdraws its matching offer, silently, and
passes the frame unchanged (R89). The HEAD's consumption of a CONFIRM: a result other than NONE, or NONE with reason
CANCELLED, changes nothing; another NONE is SHUT OUT (NOT_OPEN) outside OPEN, SHUT OUT (RETRIES) for a retry of count 15,
appended to the hold list in place of any entry of the mark, or SHUT OUT (HOLD_FULL) with HOLD_OVERFLOW where the list is
full (R94, R108). A held description is in long form and gives the same unit under the same mark as the one the CONFIRM
carried; one already in long form is held as it stands (R106). -/
def Obligations.ConfirmByRole : Prop :=
  (∀ (c : Confirm) (s : State), Ready .ret (.confirm c) s →
      exec (.confirm c) s = .next
        (endEvent s
          (let r := confirmStep (took .ret s) c
          if s.role = .mid ∨ s.role = .tail then passUp r.2 (.confirm r.1) else headConsume r.2 r.1)))
    ∧ (∀ (c : Confirm) (s : State), (∀ l o, c.result ≠ .winner s.position l o) →
        confirmStep s c =
          (c,
            match matchingOffer s c with
            | some h => freeRec { s with offers := s.offers.filter (· != h) } h
            | none => s))
    ∧ (∀ (c : Confirm) (s : State),
        ((∀ r, c.result ≠ .none r) ∨ c.result = .none .cancelled → headConsume s c = s)
          ∧ ∀ r, c.result = .none r → r ≠ .cancelled →
            headConsume s c =
              let kept := s.holds.filter fun e => descMark e.desc != descMark c.desc
              if s.voyage ≠ .opened then emitFwd s (.shutOut (descMark c.desc) .notOpen)
              else if c.retry.set = true ∧ 15 ≤ c.retry.count then emitFwd s (.shutOut (descMark c.desc) .retries)
              else if kept.length < 32 then
                { s with
                  holds := kept ++ [{ desc := descToLong c.desc, reason := r
                                      heldSince := if c.retry.set then c.retry.heldSince else s.stowClock
                                      retries := if c.retry.set then c.retry.count else 0 }] }
              else raiseNotice (emitFwd s (.shutOut (descMark c.desc) .holdFull)) .holdOverflow)
    ∧ (∀ (d : Desc),
        (∃ k r n m l w h z, descToLong d = .long k r n m l w h z) ∧ descMark (descToLong d) = descMark d
          ∧ ((∃ k r n m l w h z, d = .long k r n m l w h z) → descToLong d = d)
          ∧ (descFaulty d = false → descFaulty (descToLong d) = false ∧ descUnit (descToLong d) = descUnit d
            ∧ descExactUnit (descToLong d) = descExactUnit d))

/-- The CONFIRM step of the winner that still holds its offer: RESERVED in place with its deadline and its place in the
reservation list, or, CANCEL_PENDING set, freed with LAPSE (CANCELLED) and the frame rewritten (R90, R91). The CONFIRM step
of a winner without its offer: DUPLICATE where the mark is held. Otherwise, where the engine is OPEN, the named lane is a
defined lane of its range and passes all fifteen checks for the description at the tail, there is room and general
allocation is available, it reserves there with LATE_CONFIRM; and where any of these fails, a description that is faulty or
above 600 cm among them (log 17), it revokes, with RECORDS_LOW where general allocation is refused (log 15) (R92, R93). A
late reservation: the record allocated becomes RESERVED with the CONFIRM's description and sequence and CHANGED, is listed
at the tail of the named lane, joins the reservation list with a full deadline, and LATE_CONFIRM is posted with mark and
lane (R93, R98). The offer that matches a CONFIRM: the first of the offer list that is OFFERED with the CONFIRM's sequence
and the mark of its description; none only where no offer is so (R89). -/
def Obligations.ConfirmAtTheWinner : Prop :=
  (∀ (c : Confirm) (s : State) (h : Handle) (l : Lane) (o : Nat), c.result = .winner s.position l o →
      matchingOffer s c = some h →
        confirmStep s c =
          if (getRec s h).cancelPending = true then
            ({ c with result := .none .cancelled },
              emitFwd (freeRec { s with offers := s.offers.filter (· != h) } h)
                (.lapse (recMark (getRec s h)) (recLane (getRec s h)) (getRec s h).sequence .cancelled))
          else (c, makeReserved { s with offers := s.offers.filter (· != h) } h))
    ∧ (∀ (c : Confirm) (s : State) (l : Lane) (o : Nat), c.result = .winner s.position l o → matchingOffer s c = none →
        let good := fun (u : UnitDesc) => descExactUnit c.desc = some u ∧ s.voyage = .opened
          ∧ (∃ e, entryOf s l = some e ∧ ∀ k, checkPasses s l e u (tailPlacement s l e u) k = true)
          ∧ s.offers.length + s.reservations.length < 64 ∧ liveCount s < 480
        (∀ h st, findHolder s (descMark c.desc) = some h → holderState (getRec s h).state = some st →
            confirmStep s c = ({ c with result := .duplicate s.position ((getRec s h).lane.getD 0) (some st) }, s))
          ∧ (findHolder s (descMark c.desc) = none →
              (∀ u, good u → confirmStep s c = (c, lateReserve s u c.sequence l))
                ∧ ((¬ ∃ u, good u) → confirmStep s c =
                    (let s1 := if 480 ≤ liveCount s then raiseNotice s .recordsLow else s
                    if s.voyage = .closed then
                      ({ c with result := .none .closed }, emitFwd s1 (.revoke (descMark c.desc) l c.sequence .closed))
                    else ({ c with result := .none .revoked }, emitFwd s1 (.revoke (descMark c.desc) l c.sequence .revoked))))))
    ∧ (∀ (s s1 : State) (u : UnitDesc) (n : Seq) (l : Lane) (h : Handle), allocate s = some (h, s1) →
        let r : UnitRec := { freeRecord with state := .reserved, desc := some u, sequence := some n, changed := true }
        let t := lateReserve s u n l
        t = post (joinReservations (listAtTail (setRec s1 h r) h l) h) .lateConfirm (some u.mark) (some l) none none
          ∧ h ∈ t.reservations
          ∧ (hasRoom s l = true → occupantsOf t l = occupantsOf s l ++ [h]
              ∧ getRec t h =
                { r with
                  lane := some l, offset := (getRec t h).offset, centre := (getRec t h).centre
                  deadline := some (10 * s.policy.resTimeout) }))
    ∧ (∀ (s : State) (c : Confirm),
        let hit := fun h => (getRec s h).state = .offered ∧ (getRec s h).sequence = some c.sequence
          ∧ (getRec s h).desc.map UnitDesc.mark = some (descMark c.desc)
        (∀ h, matchingOffer s c = some h ↔ hit h ∧ ∃ a b, s.offers = a ++ h :: b ∧ ∀ g ∈ a, ¬ hit g)
          ∧ (matchingOffer s c = none ↔ ∀ h ∈ s.offers, ¬ hit h))

/-- FREED from return in: a MID or TAIL passes it up; a HEAD or SOLE acts on it as on a capacity-freed event of its own
(R105). A capacity-freed event: FREED up from a MID or TAIL; in a HEAD or SOLE nothing where the engine is not OPEN or holds
no unit, and otherwise one retry: the oldest entry, off the list, is stamped with RETRY set, its count plus one and its
held-since, takes the bid step, and goes down (HEAD) or is settled (SOLE) (R104, R105, R107). -/
def Obligations.FreedCapacityStartsOneRetry : Prop :=
  (∀ (p : Pos) (s : State), Ready .ret (.freed p) s →
      exec (.freed p) s = .next
        (if s.role = .mid ∨ s.role = .tail then
          { s with rxRet := s.rxRet.tail, passRet := s.passRet ++ [.freed p] }
        else endEvent s (capacityFreed (took .ret s))))
    ∧ (∀ (s : State),
        ((s.role = .mid ∨ s.role = .tail) → capacityFreed s = { s with origRet := s.origRet ++ [.freed s.position] })
          ∧ ((s.role = .head ∨ s.role = .sole) → (s.voyage ≠ .opened ∨ s.holds = []) → capacityFreed s = s)
          ∧ ∀ e rest, s.holds = e :: rest → s.voyage = .opened →
            let c : CheckIn :=
              { desc := e.desc, sequence := 0, retry := { set := true, count := e.retries + 1, heldSince := e.heldSince }
                bid := .none }
            let r := bidStep (stampState { s with holds := rest } c) (stampFrame s c)
            (s.role = .head → capacityFreed s = emitFwd r.2 (.checkIn r.1))
              ∧ (s.role = .sole → capacityFreed s = settleSole r.2 r.1))

/-! ## The Stow Map -/

/-- List at tail: refused with nothing changed where the lane has no room or is not listable; otherwise the record becomes
the last occupant, at offset 0 in an empty lane or a gap behind the occupant that was last, with its centre arm F − offset −
⌈length/2⌉ clamped to ±1500 and CHANGED set; every other record and every other lane stands (R30, R37, R39). Listing behind
the last ABOARD occupant: the record, listed in no lane, stands ABOARD directly behind the ABOARD part and ahead of the
pending part, its offset fixed there, its sequence and deadline removed, its aboard time the stow clock; no other ABOARD
record changes; the pending part is packed anew behind it, a record whose offset that changes having its centre arm computed
anew and CHANGED set, and nothing else of it (R31, R32, R37, R40). -/
def Obligations.ListingPlacesTheRecord : Prop :=
  (∀ (s : State) (h : Handle) (l : Lane) (u : UnitDesc), (getRec s h).desc = some u →
      (hasRoom s l = false → listAtTail s h l = s)
        ∧ (hasRoom s l = true →
          let t := listAtTail s h l
          let offset := match (occupantsOf s l).getLast? with
            | none => 0
            | some g => recAft (getRec s g) + perKind s.gaps u.kind
          occupantsOf t l = occupantsOf s l ++ [h]
            ∧ getRec t h =
              { getRec s h with
                lane := some l, offset := some offset
                centre := some (max (-1500) (min 1500
                  (stopArmOf s l - (offset : Int) - (((u.length + 1) / 2 : Nat) : Int))))
                changed := true }
            ∧ (∀ g, g ≠ h → getRec t g = getRec s g) ∧ (∀ m, m ≠ l → slotOf t m = slotOf s m)
            ∧ entryOf t l = entryOf s l ∧ t = { s with records := t.records, lanes := t.lanes }))
    ∧ (∀ (s : State) (h : Handle) (l : Lane), h ∉ occupantsOf s l → hasRoom s l = true →
        let t := listBehindAboard s h l
        let ab := aboardPart s (occupantsOf s l)
        occupantsOf t l = ab ++ [h] ++ pendingPart s (occupantsOf s l)
          ∧ getRec t h =
            { getRec s h with
              state := .aboard, lane := some l
              offset := some (offsetBehind s (aftOf s ab) (recKind (getRec s h)))
              centre := some (centreArm (stopArmOf s l) (offsetBehind s (aftOf s ab) (recKind (getRec s h)))
                (recLength (getRec s h)))
              sequence := none, deadline := none, aboardTime := some s.stowClock, cancelPending := false, changed := true }
          ∧ (∀ g, g ≠ h → isAboard s g = true → getRec t g = getRec s g)
          ∧ (∀ g, g ≠ h → g ∉ occupantsOf s l → getRec t g = getRec s g)
          ∧ (∀ g, g ≠ h → getRec t g =
              { getRec s g with
                offset := (getRec t g).offset, centre := (getRec t g).centre, changed := (getRec t g).changed })
          ∧ ((occupantsOf s l).Nodup →
              packedBehind t (aftOf t (ab ++ [h])) (pendingPart s (occupantsOf s l)) = true
              ∧ (∀ g, g ≠ h → (getRec t g).offset = (getRec s g).offset → getRec t g = getRec s g)
              ∧ (∀ g, g ≠ h → (getRec t g).offset ≠ (getRec s g).offset → (getRec t g).changed = true ∧ ∃ o : Nat,
                  (getRec t g).offset = some o
                    ∧ (getRec t g).centre = some (max (-1500) (min 1500
                      (stopArmOf s l - (o : Int) - (((recLength (getRec s g) + 1) / 2 : Nat) : Int))))))
          ∧ (∀ m, m ≠ l → slotOf t m = slotOf s m)
          ∧ t = { s with records := t.records, lanes := t.lanes })

/-- Compaction: the pending part of a lane is packed one gap behind another behind the last ABOARD occupant, or from the
forward stop; occupant lists stand, and no record changes but in offset, centre arm and CHANGED, no ABOARD record and no
record of another lane at all; a record whose offset changes has its centre arm computed anew from it and CHANGED set (R31,
R32, R37). -/
def Obligations.CompactionPacks : Prop :=
  ∀ (s : State) (l : Lane), (pendingPart s (occupantsOf s l)).Nodup →
    let t := compact s l
    packedBehind t (aftOf s (aboardPart s (occupantsOf s l))) (pendingPart s (occupantsOf s l)) = true
      ∧ (∀ g, g ∉ pendingPart s (occupantsOf s l) → getRec t g = getRec s g)
      ∧ (∀ g, getRec t g =
          { getRec s g with
            offset := (getRec t g).offset, centre := (getRec t g).centre, changed := (getRec t g).changed })
      ∧ (∀ g, (getRec t g).offset = (getRec s g).offset → getRec t g = getRec s g)
      ∧ (∀ g, (getRec t g).offset ≠ (getRec s g).offset → (getRec t g).changed = true ∧ ∃ o : Nat,
          (getRec t g).offset = some o
            ∧ (getRec t g).centre = some (max (-1500) (min 1500
              (stopArmOf s l - (o : Int) - (((recLength (getRec s g) + 1) / 2 : Nat) : Int)))))
      ∧ t = { s with records := t.records }

/-- Freeing a listed record: it leaves its lane's list and becomes FREE, every field gone; the lane's other occupants keep
their order, its pending part is packed anew, a record whose offset that changes having its centre arm computed anew and
CHANGED set; no ABOARD record and no record of another lane changes, and nothing outside the Stow Map does (R23, R32, R37,
R42). A departure: the record is unlisted and LEFT, its lane and aboard time kept, the departure time the stow clock,
CHANGED set, last in the order of departure; its offset and centre arm are gone, its lane's pending part is packed anew as
by freeing, and nothing outside the Stow Map changes (R32, R42, R132). -/
def Obligations.FreeingAndDepartureUnlist : Prop :=
  (∀ (s : State) (h : Handle) (l : Lane), isLive (getRec s h).state = true → (getRec s h).lane = some l →
      let t := freeRec s h
      getRec t h = freeRecord
        ∧ occupantsOf t l = (occupantsOf s l).filter (· != h)
        ∧ (∀ m, m ≠ l → slotOf t m = slotOf s m)
        ∧ (∀ g, g ≠ h → isAboard s g = true → getRec t g = getRec s g)
        ∧ (∀ g, g ≠ h → g ∉ occupantsOf s l → getRec t g = getRec s g)
        ∧ (∀ g, g ≠ h → getRec t g =
            { getRec s g with
              offset := (getRec t g).offset, centre := (getRec t g).centre, changed := (getRec t g).changed })
        ∧ ((occupantsOf s l).Nodup →
            packedBehind t (aftOf t (aboardPart s ((occupantsOf s l).filter (· != h))))
              (pendingPart s ((occupantsOf s l).filter (· != h))) = true
            ∧ (∀ g, g ≠ h → (getRec t g).offset = (getRec s g).offset → getRec t g = getRec s g)
            ∧ (∀ g, g ≠ h → (getRec t g).offset ≠ (getRec s g).offset → (getRec t g).changed = true ∧ ∃ o : Nat,
                (getRec t g).offset = some o
                  ∧ (getRec t g).centre = some (max (-1500) (min 1500
                    (stopArmOf s l - (o : Int) - (((recLength (getRec s g) + 1) / 2 : Nat) : Int))))))
        ∧ t = { s with records := t.records, lanes := t.lanes, departures := s.departures.filter (· != h) })
    ∧ (∀ (s : State) (h : Handle) (l : Lane), (getRec s h).lane = some l →
        let t := makeLeft s h
        getRec t h =
            { getRec s h with
              state := .left, offset := none, centre := none, departureTime := some s.stowClock, changed := true }
          ∧ occupantsOf t l = (occupantsOf s l).filter (· != h)
          ∧ t.departures = s.departures ++ [h]
          ∧ (∀ m, m ≠ l → slotOf t m = slotOf s m)
          ∧ (∀ g, g ≠ h → isAboard s g = true → getRec t g = getRec s g)
          ∧ (∀ g, g ≠ h → g ∉ occupantsOf s l → getRec t g = getRec s g)
          ∧ (∀ g, g ≠ h → getRec t g =
              { getRec s g with
                offset := (getRec t g).offset, centre := (getRec t g).centre, changed := (getRec t g).changed })
          ∧ ((occupantsOf s l).Nodup →
              packedBehind t (aftOf t (aboardPart s ((occupantsOf s l).filter (· != h))))
                (pendingPart s ((occupantsOf s l).filter (· != h))) = true
              ∧ (∀ g, g ≠ h → (getRec t g).offset = (getRec s g).offset → getRec t g = getRec s g)
              ∧ (∀ g, g ≠ h → (getRec t g).offset ≠ (getRec s g).offset → (getRec t g).changed = true ∧ ∃ o : Nat,
                  (getRec t g).offset = some o
                    ∧ (getRec t g).centre = some (max (-1500) (min 1500
                      (stopArmOf s l - (o : Int) - (((recLength (getRec s g) + 1) / 2 : Nat) : Int))))))
          ∧ t = { s with records := t.records, lanes := t.lanes, departures := t.departures })

/-- Allocation over a canonical unit table: the FREE record of lowest handle; with none FREE, the earliest LEFT record,
reclaimed with RECORDS_LOW; none only with neither (R27). -/
def Obligations.AllocationChoosesLowest : Prop :=
  ∀ (s : State), TablesCanonical s →
    (∀ h t, allocate s = some (h, t) →
        (t = s ∧ h < 512 ∧ getRec s h = freeRecord ∧ ∀ g, g < h → getRec s g ≠ freeRecord)
          ∨ ((∀ g, g < 512 → getRec s g ≠ freeRecord) ∧ ∃ rest, s.departures = h :: rest ∧ getRec t h = freeRecord
              ∧ t = { setRec s h freeRecord with departures := rest, notices := noticeSet s.notices .recordsLow }))
      ∧ (allocate s = none → (∀ g, g < 512 → getRec s g ≠ freeRecord) ∧ s.departures = [])

/-- Joining the reservation list: the count is ten ticks to the second of the reservation timeout, the list stays in order
of deadline, and the member stands behind every member whose deadline is no later (R97, R98). -/
def Obligations.ReservationsStayInOrder : Prop :=
  ∀ (s : State) (h : Handle),
    let due := fun (t : State) g => (getRec t g).deadline.getD 0
    let others := s.reservations.filter (· != h)
    let t := joinReservations s h
    s.reservations.Pairwise (fun a b => due s a ≤ due s b) →
      (getRec t h).deadline = some (10 * s.policy.resTimeout)
        ∧ t.reservations.Pairwise (fun a b => due t a ≤ due t b)
        ∧ t.reservations.Perm (h :: others)
        ∧ t.reservations.filter (· != h) = others
        ∧ (∀ a b, t.reservations = a ++ h :: b → ∀ g ∈ b, 10 * s.policy.resTimeout < due s g)
        ∧ (∀ g, g ≠ h → getRec t g = getRec s g)

/-! ## The log and ATTENTION -/

/-- Posting: with fewer than 32 records the exception is appended under the next sequence number and the stow clock, and
LOGGED is set; with 32 it is dropped, takes no number, and LOG_FULL is set (R175, R176). The end of an event: one ATTENTION
with every flag set, the log's length and the next sequence number, and armed cleared, exactly where armed is set and the
event has set a flag whose enable is set (R179; a flag "set by the event" was clear before it, log 14). -/
def Obligations.PostingAndAttention : Prop :=
  (∀ (s : State) (k : ExcKind) (m : Option Mark) (l : Option Lane) (m2 : Option Mark) (d : Option ExcDetail),
      post s k m l m2 d =
        if s.log.length < 32 then
          { s with
            log := s.log ++ [{ sequence := s.nextExc, clock := s.stowClock, kind := k, mark := m, lane := l, second := m2
                               detail := d }]
            nextExc := s.nextExc + 1, notices := { s.notices with logged := true } }
        else { s with notices := { s.notices with logFull := true } })
    ∧ (∀ (s t : State),
        endEvent s t =
          if t.armed = true ∧ noticeAny (noticeAnd (noticeMinus t.notices s.notices) t.enables) = true then
            { t with
              origRet := t.origRet ++ [.attention t.position t.notices t.log.length t.nextExc], armed := false }
          else t)

/-! ## Tallies -/

/-- In SETUP a tally is forwarded unchanged and changes nothing (R116). TALLY_ON in OPEN or CLOSED: the action of Table 6.2,
then TALLY_CLOSED in CLOSED where it changed a record or logged UNRECORDED, then UNPLACED at a TAIL or SOLE where PLACED is
still clear; the frame goes on with PLACED set by an engine that lists the unit or would, and a capacity-freed event comes
last (R116, R117, R118, R135). The action of a TALLY-ON, by the holder of the mark, its state and lane, and whether the lane
lies in the range (Table 6.2, R117). A unit tallied outside the range: a RESERVED one leaves its list and is freed, and
nothing is logged; an ABOARD one is made LEFT, with RESTOW and then EXIT_ORDER where ABOARD occupants stood aft of it.
Either frees capacity and leaves PLACED as it is (R122, R126). -/
def Obligations.TallyOnInOrder : Prop :=
  (∀ (m : Mark) (l : Lane) (d : Option Desc) (flag : Bool) (s : State), s.voyage = .setup →
      (Ready .fwd (.tallyOn m l d flag) s →
          exec (.tallyOn m l d flag) s
            = .next { s with rxFwd := s.rxFwd.tail, passFwd := s.passFwd ++ [.tallyOn m l d flag] })
        ∧ (Ready .fwd (.tallyOff m l flag) s →
          exec (.tallyOff m l flag) s
            = .next { s with rxFwd := s.rxFwd.tail, passFwd := s.passFwd ++ [.tallyOff m l flag] }))
    ∧ (∀ (m : Mark) (l : Lane) (d : Option Desc) (placed : Bool) (s : State), Ready .fwd (.tallyOn m l d placed) s →
        s.voyage ≠ .setup →
          exec (.tallyOn m l d placed) s = .next
            (endEvent s
              (let r := tallyOnAction (took .fwd s) m l d
              let s1 := if s.voyage = .closed ∧ r.changed = true then post r.st .tallyClosed (some m) (some l) none none
                else r.st
              let s2 := if (s.role = .tail ∨ s.role = .sole) ∧ placed = false ∧ r.marks = false then
                  post s1 .unplaced (some m) (some l) none none
                else s1
              let s3 := { s2 with passFwd := s.passFwd ++ [.tallyOn m l d (placed || r.marks)] }
              if r.freed = true then capacityFreed s3 else s3)))
    ∧ (∀ (s : State) (m : Mark) (l : Lane) (d : Option Desc),
        (findHolder s m = none → tallyOnAction s m l d = if inRange s l then tallyForced s m l d else noTally s)
          ∧ ∀ h, findHolder s m = some h →
            ((getRec s h).state = .reserved →
                tallyOnAction s m l d =
                  if inRange s l = false then tallyElsewhere s h
                  else if (getRec s h).lane = some l then tallyCommit s m l h else tallyMove s m l h)
              ∧ ((getRec s h).state = .offered →
                tallyOnAction s m l d = if inRange s l then tallyConvert s m l h else noTally s)
              ∧ ((getRec s h).state = .aboard →
                tallyOnAction s m l d =
                  if inRange s l = false then tallyRestowElsewhere s m l h
                  else if (getRec s h).lane = some l then { st := s, marks := true, changed := false, freed := false }
                  else tallyRestow s m l h))
    ∧ (∀ (s : State) (m : Mark) (l : Lane) (h : Handle),
        let s1 := post (makeLeft s h) .restow (some m) (some l) none none
        tallyElsewhere s h =
            { st := freeRec { s with reservations := s.reservations.filter (· != h) } h
              marks := false, changed := true, freed := true }
          ∧ tallyRestowElsewhere s m l h =
            { st := if aboardAft s h then post s1 .exitOrder (some m) (getRec s h).lane none none else s1
              marks := false, changed := true, freed := true })

/-- A commit: the reservation leaves its list and the record is ABOARD in its own lane, behind the last ABOARD occupant, its
description and its FORCED and DEFAULTED flags kept; the rest of the pending part is packed anew behind it, a record whose
offset that changes having its centre arm computed anew and CHANGED set; PLACED is set, and no capacity is freed; what the
promotion leaves is then judged, the last ABOARD occupant before it being the one ahead (R32, R37, R41, R119, R120). The
judgement of a unit made ABOARD: ORDER where the occupant ahead has a lower rank, HOIST_MOVING with the lowest holding
section where the lane is held, and STABILITY_OUT where heel or trim is out of limits (R16, R120). The sections that hold a
lane by Table 7.2: none where no section holds it, and otherwise the least id of those that do comes first (R120, R138). A
move and a conversion: the pending record leaves its list and its old lane and is listed ABOARD behind the last ABOARD
occupant of the lane tallied, a converted one with FORCED set. A move logs WRONG_LANE, and LIMIT with the forced checks that
fail once the old lane is left; a conversion logs FORCED and runs no forced checks; the judgement follows, and no capacity
is freed (R121, R123). -/
def Obligations.CommitPromotesAndIsJudged : Prop :=
  (∀ (s : State) (m : Mark) (l : Lane) (h : Handle), (getRec s h).state = .reserved → (slotOf s l).isSome = true →
      let r := tallyCommit s m l h
      let ab := aboardPart s (occupantsOf s l)
      r.marks = true ∧ r.changed = true ∧ r.freed = false
        ∧ r.st.reservations = s.reservations.filter (· != h)
        ∧ occupantsOf r.st l = ab ++ [h] ++ (pendingPart s (occupantsOf s l)).filter (· != h)
        ∧ getRec r.st h =
          { getRec s h with
            state := .aboard, lane := some l
            offset := some (offsetBehind s (aftOf s ab) (recKind (getRec s h)))
            centre := some (centreArm (stopArmOf s l) (offsetBehind s (aftOf s ab) (recKind (getRec s h)))
              (recLength (getRec s h)))
            sequence := none, deadline := none, aboardTime := some s.stowClock, cancelPending := false, changed := true }
        ∧ (∀ g, g ≠ h → isAboard s g = true → getRec r.st g = getRec s g)
        ∧ (∀ g, g ≠ h → g ∉ occupantsOf s l → getRec r.st g = getRec s g)
        ∧ (∀ g, g ≠ h → getRec r.st g =
            { getRec s g with
              offset := (getRec r.st g).offset, centre := (getRec r.st g).centre, changed := (getRec r.st g).changed })
        ∧ ((occupantsOf s l).Nodup →
            packedBehind r.st (aftOf r.st (ab ++ [h])) ((pendingPart s (occupantsOf s l)).filter (· != h)) = true
            ∧ (∀ g, g ≠ h → (getRec r.st g).offset = (getRec s g).offset → getRec r.st g = getRec s g)
            ∧ (∀ g, g ≠ h → (getRec r.st g).offset ≠ (getRec s g).offset → (getRec r.st g).changed = true ∧ ∃ o : Nat,
                (getRec r.st g).offset = some o
                  ∧ (getRec r.st g).centre = some (max (-1500) (min 1500
                    (stopArmOf s l - (o : Int) - (((recLength (getRec s g) + 1) / 2 : Nat) : Int))))))
        ∧ r.st = judge (promote { s with reservations := s.reservations.filter (· != h) } h l) m l (recRank (getRec s h))
          (ab.getLast?.map (getRec s)))
    ∧ (∀ (s : State) (m : Mark) (l : Lane) (rank : Nat) (ahead : Option UnitRec),
        judge s m l rank ahead =
          let s1 := match ahead with
            | some a => if recRank a < rank then post s .order (some m) (some l) (some (recMark a)) none else s
            | none => s
          let s2 := match holders s l with
            | id :: _ => post s1 .hoistMoving (some m) (some l) none (some (.hoistSection id))
            | [] => s1
          if s.limits.hLim < ((projHeel s).natAbs : Int) ∨ projTrim s < s.limits.tMin ∨ s.limits.tMax < projTrim s then
            { s2 with notices := { s2.notices with stabilityOut := true } }
          else s2)
    ∧ (∀ (s : State) (l : Lane), (s.sections.map Prod.fst).Pairwise (· < ·) →
        let holds := fun (e : SectionEntry) =>
          (l ∈ e.hoist ∧ e.state ≠ .deployed) ∨ (l ∈ e.covered ∧ e.state ≠ .stowed ∧ e.state ≠ .deployed)
        (holders s l = [] ↔ ∀ x ∈ s.sections, ¬ holds x.2)
          ∧ ∀ id rest, holders s l = id :: rest →
            (∃ e, (id, e) ∈ s.sections ∧ holds e) ∧ ∀ id' e', (id', e') ∈ s.sections → holds e' → id ≤ id')
    ∧ (∀ (s : State) (m : Mark) (l : Lane) (h : Handle) (u : UnitDesc), canTake s l (some h) = true →
        (getRec s h).desc = some u →
          let s1 := unlist { s with reservations := s.reservations.filter (· != h) } h
          let s2 := post (listBehindAboard s1 h l) .wrongLane (some m) (some l) none none
          let failed := forcedFailures s1 l u
          let s3 := if failed = [] then s2 else post s2 .limit (some m) (some l) none (some (.checks failed))
          let o1 := unlist { s with offers := s.offers.filter (· != h) } h
          let o2 := listBehindAboard (setRec o1 h { getRec o1 h with forced := true }) h l
          tallyMove s m l h =
              { st := judge s3 m l u.rank ((aboardPart s1 (occupantsOf s1 l)).getLast?.map (getRec s1))
                marks := true, changed := true, freed := false }
            ∧ tallyConvert s m l h =
              { st := judge (post o2 .forced (some m) (some l) none none) m l u.rank
                  ((aboardPart o1 (occupantsOf o1 l)).getLast?.map (getRec o1))
                marks := true, changed := true, freed := false })

/-- A forced placement that can be recorded: one new record, ABOARD behind the last ABOARD occupant, with the frame's valid
description (a height above 600 as 600) or else the default unit with DEFAULTED, the frame's mark, and FORCED; FORCED is
logged, then LIMIT with the forced checks that failed on the state before the listing, then the judgement follows (R26,
R127, R128, R129). The test of R129 asks for a defined lane of the range, its deck with an entry besides (log 20), and fewer
than 40 occupants, the unit's own record not counted. The aboard position behind the last ABOARD occupant, the pending
occupants packed behind the unit, and the eleven forced checks there, in number order (R53, R70). A restow: the old record
is made LEFT; a new one, with its description and its FORCED and DEFAULTED flags, is listed ABOARD behind the last ABOARD
occupant of the lane tallied; RESTOW is logged, EXIT_ORDER with the old lane where ABOARD occupants stood aft of it, LIMIT
with the forced checks that fail before the listing, and the judgement follows (R125). A tally whose lane cannot take the
unit: UNRECORDED is logged, the lane is SUSPECT and SUSPECT_LANE is set, PLACED is set, every record and list stands, and no
other exception is logged; a forced placement or restow without a forced allocation sets RECORDS_LOW besides, whether or not
the lane test fails too (R26, R35, R129; log 15). -/
def Obligations.ForcedPlacementOrUnrecorded : Prop :=
  (∀ (s s1 : State) (m : Mark) (l : Lane) (d : Option Desc) (n : Handle), canTake s l none = true → liveCount s < 512 →
      allocate s = some (n, s1) →
        tallyForced s m l d =
          let u : UnitDesc := match d.bind descUnit with
            | some v => { v with mark := m }
            | none => { s.defaultUnit with mark := m }
          let failed := forcedFailures s1 l u
          let s2 := listBehindAboard
            (setRec s1 n
              { freeRecord with
                state := .aboard, desc := some u, changed := true, forced := true
                defaulted := (d.bind descUnit).isNone }) n l
          let s3 := post s2 .forced (some m) (some l) none none
          let s4 := if failed = [] then s3 else post s3 .limit (some m) (some l) none (some (.checks failed))
          { st := judge s4 m l u.rank (((aboardPart s1 (occupantsOf s1 l)).getLast?).map (getRec s1))
            marks := true, changed := true, freed := false })
    ∧ (∀ (s : State) (l : Lane) (own : Option Handle),
        canTake s l own = true ↔
          (∃ e, entryOf s l = some e ∧ Table.find s.decks e.deck ≠ none)
            ∧ ((occupantsOf s l).filter fun h => decide (some h ≠ own)).length < 40)
    ∧ (∀ (s : State) (l : Lane) (e : LaneEntry) (u : UnitDesc),
        let p := aboardPlacement s l e u
        let ab := aboardPart s (occupantsOf s l)
        let pend := pendingPart s (occupantsOf s l)
        let arm := fun (o len : Nat) => max (-1500) (min 1500 (e.stopArm - (o : Int) - (((len + 1) / 2 : Nat) : Int)))
        let packed := pend.foldl
          (fun (x : Nat × Int) h =>
            let o := x.1 + perKind s.gaps (recKind (getRec s h))
            (o + recLength (getRec s h), x.2 + (recMass (getRec s h) : Int) * arm o (recLength (getRec s h))))
          (p.offset + u.length, 0)
        p.offset = (match ab.getLast? with
            | none => 0
            | some g => recAft (getRec s g) + perKind s.gaps u.kind)
          ∧ p.fillAfter = packed.1 ∧ p.centre = arm p.offset u.length
          ∧ p.hAfter = projHeel s + (u.mass : Int) * e.arm
          ∧ p.tAfter = projTrim s + (u.mass : Int) * p.centre
            + (packed.2 - (pend.map fun h => (recMass (getRec s h) : Int) * (getRec s h).centre.getD 0).sum)
          ∧ p.fore = ab.getLast? ∧ p.aft = pend.head?
          ∧ (entryOf s l = some e → forcedFailures s l u =
              [Check.kind, .closed, .height, .unitMass, .length, .laneMass, .deckMass, .plug, .hazard, .heel, .trim].filter
                fun k => !checkPasses s l e u p k))
    ∧ (∀ (s s1 : State) (m : Mark) (l : Lane) (h n : Handle) (u : UnitDesc), canTake s l none = true → liveCount s < 512 →
        allocate s = some (n, s1) → (getRec s h).desc = some u →
          let s2 := makeLeft
            (setRec s1 n
              { freeRecord with
                state := .aboard, desc := some u, forced := (getRec s h).forced, defaulted := (getRec s h).defaulted
                changed := true }) h
          let failed := forcedFailures s2 l u
          let s3 := post (listBehindAboard s2 n l) .restow (some m) (some l) none none
          let s4 := if aboardAft s h then post s3 .exitOrder (some m) (getRec s h).lane none none else s3
          let s5 := if failed = [] then s4 else post s4 .limit (some m) (some l) none (some (.checks failed))
          tallyRestow s m l h =
            { st := judge s5 m l u.rank ((aboardPart s2 (occupantsOf s2 l)).getLast?.map (getRec s2))
              marks := true, changed := true, freed := false })
    ∧ (∀ (s : State) (m : Mark) (l : Lane) (d : Option Desc) (h : Handle),
        let un := fun (low : Bool) =>
          let p := post s .unrecorded (some m) (some l) none none
          ({ st :=
              { p with
                lanes := (modifySlot s l fun x => { x with suspect := true }).lanes
                notices := { p.notices with suspectLane := true, recordsLow := s.notices.recordsLow || low } }
             marks := true, changed := true, freed := false } : TallyResult)
        ((canTake s l none = false ∨ 512 ≤ liveCount s) → tallyForced s m l d = un (decide (512 ≤ liveCount s)))
          ∧ ((canTake s l none = false ∨ 512 ≤ liveCount s) → tallyRestow s m l h = un (decide (512 ≤ liveCount s)))
          ∧ (canTake s l (some h) = false → tallyMove s m l h = un false)
          ∧ (canTake s l (some h) = false → tallyConvert s m l h = un false))

/-- TALLY_OFF in OPEN or CLOSED: the ABOARD record of the mark, in whatever lane, is made LEFT with EXIT_ORDER where ABOARD
occupants stood aft of it, REMOVED is set and capacity is freed; a mark not ABOARD here changes nothing, and at a TAIL or
SOLE a REMOVED flag still clear logs UNKNOWN_EXIT; TALLY_CLOSED is logged in CLOSED (R132, R133, R134, R135). ABOARD
occupants stand aft of an ABOARD record exactly where its lane lists one behind it (R133). -/
def Obligations.TallyOffRecordsTheExit : Prop :=
  (∀ (m : Mark) (l : Lane) (removed : Bool) (s : State), Ready .fwd (.tallyOff m l removed) s → s.voyage ≠ .setup →
      ((∀ h, findHolder s m = some h → (getRec s h).state ≠ .aboard) →
          exec (.tallyOff m l removed) s = .next
            (endEvent s
              (let s1 := if (s.role = .tail ∨ s.role = .sole) ∧ removed = false then
                  post (took .fwd s) .unknownExit (some m) (some l) none none
                else took .fwd s
              { s1 with passFwd := s.passFwd ++ [.tallyOff m l removed] })))
        ∧ ∀ h, findHolder s m = some h → (getRec s h).state = .aboard →
          exec (.tallyOff m l removed) s = .next
            (endEvent s
              (let s1 := makeLeft (took .fwd s) h
              let s2 := if aboardAft s h then post s1 .exitOrder (some m) (getRec s h).lane none none else s1
              let s3 := if s.voyage = .closed then post s2 .tallyClosed (some m) (some l) none none else s2
              capacityFreed { s3 with passFwd := s.passFwd ++ [.tallyOff m l true] })))
    ∧ (∀ (s : State) (h : Handle), (getRec s h).state = .aboard →
        (aboardAft s h = true ↔ ∃ l a b g, (getRec s h).lane = some l ∧ occupantsOf s l = a ++ h :: b ∧ g ∈ b
          ∧ (getRec s g).state = .aboard))

/-! ## Hoistable decks -/

/-- HOIST_STATUS_DOWN always completes: at another position, or for a section not defined, the frame is forwarded and
nothing else happens; at the target position a defined section is acted on by its state, and the frame forwarded (R143,
R144). The LIMIT exceptions of an unpermitted DOWN: one for each listed occupant of a covered lane taller than the reduced
clearance, lanes in listed order, each lane forward to aft, each with the failed check HEIGHT (R144; the same order names
the occupant in the way of a DEPLOY, R141). HOIST_STATUS_UP always completes: at another position, or for a section not
defined, the frame is forwarded and nothing else happens; at the target position it stows a defined section, withdrawing the
offers in its hoist lanes, in the order of the offer list, where it was DEPLOYED, and logs by the state it was in (R143,
R145). -/
def Obligations.HoistStatusActs : Prop :=
  (∀ (p : Pos) (id : Nat) (s : State), Ready .fwd (.hoistStatus p id true) s →
      let on := fun (t : State) => ({ t with passFwd := t.passFwd ++ [.hoistStatus p id true] } : State)
      (∃ t, exec (.hoistStatusDown p id) s = .next t)
        ∧ ((p ≠ s.position ∨ Table.find s.sections id = none) → exec (.hoistStatusDown p id) s = .next (on (took .fwd s)))
        ∧ ∀ e, p = s.position → Table.find s.sections id = some e →
          let down := { took .fwd s with sections := Table.put id { e with state := .deployed, timer := none } s.sections }
          let bad := post down .hoistUnpermitted none none none (some (.hoistSection id))
          (e.state = .deployed → exec (.hoistStatusDown p id) s = .next (on (took .fwd s)))
            ∧ (e.state = .deploying → exec (.hoistStatusDown p id) s = .next (endEvent s (on (capacityFreed down))))
            ∧ (e.state = .fault → exec (.hoistStatusDown p id) s
                = .next (endEvent s (on (post down .hoistLate none none none (some (.hoistSection id))))))
            ∧ ((e.state = .stowed ∨ e.state = .stowing) →
                exec (.hoistStatusDown p id) s = .next (endEvent s (on (postHeights (overHeight s e) bad)))))
    ∧ (∀ (s : State) (e : SectionEntry),
        overHeight s e = (e.covered.flatMap fun l =>
            ((occupantsOf s l).filter fun h => decide (e.reduced < recHeight (getRec s h))).map fun h => (l, h))
          ∧ ∀ t : State, t.records = s.records →
            postHeights (overHeight s e) t =
              (overHeight s e).foldl
                (fun r x => post r .limit (some (recMark (getRec s x.2))) (some x.1) none (some (.checks [.height]))) t)
    ∧ (∀ (p : Pos) (id : Nat) (s : State), Ready .fwd (.hoistStatus p id false) s →
        let on := fun (t : State) => ({ t with passFwd := t.passFwd ++ [.hoistStatus p id false] } : State)
        (∃ t, exec (.hoistStatusUp p id) s = .next t)
          ∧ ((p ≠ s.position ∨ Table.find s.sections id = none) → exec (.hoistStatusUp p id) s = .next (on (took .fwd s)))
          ∧ ∀ e, p = s.position → Table.find s.sections id = some e →
            let up := { took .fwd s with sections := Table.put id { e with state := .stowed, timer := none } s.sections }
            let gone := s.offers.filter fun h =>
              (getRec s h).state == .offered && (getRec s h).lane.any fun l => e.hoist.contains l
            let bad := fun (t : State) => post t .hoistUnpermitted none none none (some (.hoistSection id))
            (e.state = .stowed → exec (.hoistStatusUp p id) s = .next (on (took .fwd s)))
              ∧ (e.state = .stowing → exec (.hoistStatusUp p id) s = .next (on up))
              ∧ (e.state = .fault → exec (.hoistStatusUp p id) s
                  = .next (endEvent s (on (post up .hoistLate none none none (some (.hoistSection id))))))
              ∧ (e.state = .deploying → exec (.hoistStatusUp p id) s = .next (endEvent s (on (bad up))))
              ∧ (e.state = .deployed → exec (.hoistStatusUp p id) s
                  = .next (endEvent s (on (bad
                    (gone.foldl (fun t h => freeRec { t with offers := t.offers.filter (· != h) } h) up))))))

/-- DEPLOY, with the first outcome that applies: BAD_FIELD, NO_SUCH, WRONG_STATE, BLOCKED by the first over-height occupant
of a covered lane; or DEPLOYING with the timer at ten ticks to the second and HOIST PERMIT (LOWER) down (R141, R142). STOW,
with the first outcome that applies: BAD_FIELD, NO_SUCH, WRONG_STATE, BLOCKED by the first occupant of a hoist lane; or
STOWING with the timer at ten ticks to the second and HOIST PERMIT (RAISE) down (R141, R142). -/
def Obligations.DeployAndStowAnswer : Prop :=
  (∀ (q : ReqHead) (id : Nat) (s : State), Addressed q (.deploy id) s →
      exec (.deploy q id) s = .next
        (if 5 < id then replied q .badField .empty s
        else
          match Table.find s.sections id with
          | none => replied q .noSuch .empty s
          | some e =>
            if e.state ≠ .stowed then replied q .wrongState .empty s
            else
              match overHeight s e with
              | (l, h) :: _ =>
                replied q .blocked (.blocked l h (recMark (getRec s h)) (some (recHeight (getRec s h)))) s
              | [] =>
                { replied q .ok (.hoist id .deploying) s with
                  sections := Table.put id { e with state := .deploying, timer := some (10 * e.travel) } s.sections
                  origFwd := s.origFwd ++ [.hoistPermit s.position id .lower e.travel] }))
    ∧ (∀ (q : ReqHead) (id : Nat) (s : State), Addressed q (.stow id) s →
        exec (.stow q id) s = .next
          (if 5 < id then replied q .badField .empty s
          else
            match Table.find s.sections id with
            | none => replied q .noSuch .empty s
            | some e =>
              if e.state ≠ .deployed ∧ e.state ≠ .fault then replied q .wrongState .empty s
              else
                match e.hoist.flatMap fun l => (occupantsOf s l).map fun h => (l, h) with
                | (l, h) :: _ => replied q .blocked (.blocked l h (recMark (getRec s h)) none) s
                | [] =>
                  { replied q .ok (.hoist id .stowing) s with
                    sections := Table.put id { e with state := .stowing, timer := some (10 * e.travel) } s.sections
                    origFwd := s.origFwd ++ [.hoistPermit s.position id .raise e.travel] }))

/-! ## Reports -/

/-- REPORT: WRONG_ROLE at a MID or TAIL, BAD_FIELD for a criterion that is none of the four or a rank outside 1..8, BUSY
with a report in progress; or the serial advances, the section is composed, and REPLY, REPORT HEADER and SECTION go up in
that order (R165, R167, R169). The four criteria a REPORT may carry, and no other (R165). REPORT_TOKEN at a MID or TAIL: an
earlier section still being emitted ends, its waiting frame among it (log 12); the engine composes its section, to go on
with the count one higher, and places its SECTION frame; a HEAD or SOLE passes the token through (R167, R169, R171).
TRAILER: passed up; a HEAD in AWAITING whose report bears its serial stops the timer and becomes IDLE (R172). -/
def Obligations.ReportsStartPassAndEnd : Prop :=
  (∀ (q : ReqHead) (cf : CriterionField) (s : State), Addressed q (.report cf) s →
      exec (.report q cf) s = .next
        (if s.role = .mid ∨ s.role = .tail then replied q .wrongRole .empty s
        else
          match criterionOf cf with
          | none => replied q .badField .empty s
          | some c =>
            if s.reportState ≠ .idle then replied q .busy .empty s
            else
              let n := s.reportSerial + 1
              let t := composeSection
                { took .fwd s with reportSerial := n, report := some (n, c), reportState := .sending } c
                { serial := n, criterion := c, count := 1 }
              { t with
                pendingClear := false
                origRet := s.origRet
                  ++ [.reply q.tag s.position .ok (.reportSerial n), .reportHeader n c s.stowClock,
                      sectionFrame s n (sectionHandles s c).length] }))
    ∧ (criterionOf .aboard = some .aboard ∧ criterionOf .plan = some .plan ∧ criterionOf .changed = some .changed
        ∧ (∀ n, criterionOf (.rank n) = if 1 ≤ n ∧ n ≤ 8 then some (.rank n) else none)
        ∧ ∀ code, criterionOf (.other code) = none)
    ∧ (∀ (k : Token) (s : State), Ready .fwd (.reportToken k) s →
        exec (.reportToken k) s = .next
          (if s.role = .mid ∨ s.role = .tail then
            let waiting := if s.emitting = true then s.origRet.filter (fun f => !isSectionFrame f) else s.origRet
            let t := composeSection (took .fwd s) k.criterion { k with count := k.count + 1 }
            { t with origRet := waiting ++ [sectionFrame s k.serial (sectionHandles s k.criterion).length] }
          else { s with rxFwd := s.rxFwd.tail, passFwd := s.passFwd ++ [.reportToken k] }))
    ∧ (∀ (serial : Byte) (count : Nat) (s : State), Ready .ret (.trailer serial count) s →
        exec (.trailer serial count) s = .next
          (let t := { took .ret s with passRet := s.passRet ++ [.trailer serial count] }
          if s.role = .head ∧ s.reportState = .awaiting ∧ s.report.map Prod.fst = some serial then
            { t with reportState := .idle, reportTimer := none, report := none }
          else t))

/-! ## Fast orders -/

/-- LANE_MASK: forwarded; the admin state of every defined lane of the range in the set is set, and nothing else of the
lane; in OPEN or CLOSED one capacity-freed event where a CLOSED lane is opened (R160). -/
def Obligations.LaneMaskSetsAdmin : Prop :=
  ∀ (lanes : BitVec 256) (a : Admin) (s : State), Ready .fwd (.laneMask lanes a) s → ∃ u : State,
    exec (.laneMask lanes a) s = .next
        (if s.voyage ≠ .setup ∧ a = .opened
            ∧ (definedLanes s).any (fun e => lanes.getLsbD e.1 && e.2.admin == .closed) = true then
          endEvent s (capacityFreed u)
        else u)
      ∧ u = { s with rxFwd := s.rxFwd.tail, passFwd := s.passFwd ++ [.laneMask lanes a], lanes := u.lanes }
      ∧ u.lanes.length = s.lanes.length
      ∧ ∀ l, slotOf u l = (slotOf s l).map fun x =>
          { x with entry := x.entry.map fun e => if lanes.getLsbD l then { e with admin := a } else e }

/-- SEAL in OPEN: CLOSED, every offer, reservation and trial gone and its record freed, a HEAD's or SOLE's hold list emptied
with SHUT OUT (SEALED) per entry, oldest first; the freed records are FREE with every field gone and leave their lanes'
lists, ABOARD occupants stay listed in their order, ABOARD and LEFT records and the order of departure stand, and no other
frame, notice or exception is made. In SETUP or CLOSED the order only goes on (R46, R86, R101, R109, R115, R153). -/
def Obligations.SealWithdrawsEverythingPending : Prop :=
  ∀ (s : State), Ready .fwd .sealOrder s → ∃ t : State, exec .sealOrder s = .next t
    ∧ (s.voyage ≠ .opened → t = { s with rxFwd := s.rxFwd.tail, passFwd := s.passFwd ++ [.sealOrder] })
    ∧ (s.voyage = .opened →
        t = { s with
              rxFwd := s.rxFwd.tail, passFwd := s.passFwd ++ [.sealOrder], voyage := .closed
              offers := [], reservations := [], trials := []
              holds := if s.role = Role.head ∨ s.role = Role.sole then [] else s.holds
              origFwd := s.origFwd ++ (if s.role = Role.head ∨ s.role = Role.sole then
                s.holds.map (fun e => Frame.shutOut (descMark e.desc) ShutReason.sealed) else [])
              records := t.records, lanes := t.lanes, departures := t.departures }
          ∧ SameEntries s t
          ∧ (∀ h, h ∈ s.offers ∨ h ∈ s.reservations ∨ h ∈ s.trials →
              (getRec t h).state = .free ∧ (getRec t h).desc = none ∧ (getRec t h).deadline = none)
          ∧ (∀ h, h ∉ s.offers → h ∉ s.reservations → h ∉ s.trials → isAboard s h = true → getRec t h = getRec s h)
          ∧ (MapAgrees s →
              (∀ l, occupantsOf t l = (occupantsOf s l).filter (isAboard s)) ∧ t.departures = s.departures
                ∧ (∀ h, h ∈ s.offers ∨ h ∈ s.reservations ∨ h ∈ s.trials → getRec t h = freeRecord)
                ∧ ∀ h, (getRec s h).state = .aboard ∨ (getRec s h).state = .left → getRec t h = getRec s h))

/-- ABORT: every offer and trial gone and its record freed, the hold list of a HEAD or SOLE emptied with SHUT OUT (ABORTED)
per entry, the report abandoned with REPORT ABORTED where one is in progress at a HEAD or SOLE, its own waiting section
frame, token and trailer removed, whether or not the HEAD's report is still in progress (log 27), pending-clear cleared; the
freed records are FREE with every field gone and leave their lanes' lists, every other occupant stays in its order, packed
anew, a reservation moved by that having its centre arm computed anew and CHANGED set, and reservations otherwise, ABOARD
and LEFT records, the order of departure and the voyage state stand (R32, R37, R46, R86, R109, R115, R159, R173, R186). The
frames of a report that its abandoning removes: section frames, REPORT TOKEN and TRAILER (R186). -/
def Obligations.AbortWithdrawsWhatIsTentative : Prop :=
  (∀ (s : State), Ready .fwd .abort s → ∃ t : State, exec .abort s = .next t
      ∧ t = { s with
              rxFwd := s.rxFwd.tail, passFwd := s.passFwd ++ [.abort], offers := [], trials := []
              holds := if s.role = Role.head ∨ s.role = Role.sole then [] else s.holds
              origFwd := (s.origFwd ++ (if s.role = Role.head ∨ s.role = Role.sole then
                s.holds.map (fun e => Frame.shutOut (descMark e.desc) ShutReason.aborted) else [])).filter (fun f => !isReportFrame f)
              origRet := s.origRet.filter (fun f => !isReportFrame f)
                ++ (if (s.role = Role.head ∨ s.role = Role.sole) ∧ s.reportState ≠ ReportState.idle then
                  [Frame.reportAborted (serialInProgress s)] else [])
              reportState := .idle, reportTimer := none, report := none, emitting := false, buffer := [], heldToken := none
              pendingClear := false
              records := t.records, lanes := t.lanes, departures := t.departures }
      ∧ SameEntries s t
      ∧ (∀ h, h ∈ s.offers ∨ h ∈ s.trials →
          (getRec t h).state = .free ∧ (getRec t h).desc = none ∧ (getRec t h).deadline = none)
      ∧ (∀ h, h ∉ s.offers → h ∉ s.trials → isAboard s h = true → getRec t h = getRec s h)
      ∧ (∀ h, h ∉ s.offers → h ∉ s.trials →
          (getRec t h).state = (getRec s h).state ∧ (getRec t h).desc = (getRec s h).desc
            ∧ (getRec t h).deadline = (getRec s h).deadline)
      ∧ (MapAgrees s →
          (∀ l, occupantsOf t l = (occupantsOf s l).filter fun h => decide (h ∉ s.offers ∧ h ∉ s.trials))
            ∧ t.departures = s.departures
            ∧ (∀ h, h ∈ s.offers ∨ h ∈ s.trials → getRec t h = freeRecord)
            ∧ (∀ h, (getRec s h).state = .aboard ∨ (getRec s h).state = .left → getRec t h = getRec s h)
            ∧ (PendingPacked s → PendingPacked t)
            ∧ ∀ h, h ∉ s.offers → h ∉ s.trials → getRec t h ≠ getRec s h → ∃ (l : Lane) (o : Nat), (getRec s h).lane = some l
              ∧ getRec t h =
                { getRec s h with
                  offset := some o, changed := true
                  centre := some (max (-1500) (min 1500
                    (stopArmOf s l - (o : Int) - (((recLength (getRec s h) + 1) / 2 : Nat) : Int)))) }))
    ∧ (∀ (f : Frame), isReportFrame f = match f with
        | .sectionHeader _ _ _ _ _ _ | .reportRecords _ _ _ | .reportToken _ | .trailer _ _ => true
        | _ => false)

/-- UNSEAL: CLOSED becomes OPEN; with ADVANCE every ABOARD occupant's rank falls by one, or, at rank 1, stays and is logged
OVERCARRIED, lane by lane ascending, forward to aft. In SETUP or OPEN the order only goes on (R154, R155). -/
def Obligations.UnsealReopens : Prop :=
  ∀ (advance : Bool) (s : State), Ready .fwd (.unsealOrder advance) s →
    let on := { took .fwd s with passFwd := s.passFwd ++ [.unsealOrder advance] }
    exec (.unsealOrder advance) s = .next
      (if s.voyage ≠ .closed then on
      else if advance = false then { on with voyage := .opened }
      else
        endEvent s
          (((laneSlots s).flatMap fun x => (x.2.occupants.filter (isAboard s)).map fun h => (x.1, h)).foldl
            (fun t x =>
              if recRank (getRec t x.2) ≤ 1 then
                post t .overcarried (some (recMark (getRec t x.2))) (some x.1) none none
              else
                setRec t x.2
                  { getRec t x.2 with desc := (getRec t x.2).desc.map fun u => { u with rank := u.rank - 1 } })
            { on with voyage := .opened }))

/-- CANCEL: forwarded; a HEAD or SOLE first removes the held entry of the mark with SHUT OUT (CANCELLED); then a RESERVED
holder is freed with LAPSE (CANCELLED) as a capacity-freed event, an OFFERED one has CANCEL_PENDING set, and an ABOARD one
or none stands (R102, R103). -/
def Obligations.CancelWithdrawsTheMark : Prop :=
  ∀ (m : Mark) (s : State), Ready .fwd (.cancel m) s →
    let on := { took .fwd s with passFwd := s.passFwd ++ [.cancel m] }
    let s1 : State :=
      if (s.role = .head ∨ s.role = .sole) ∧ ∃ e ∈ s.holds, descMark e.desc = m then
        { on with
          holds := s.holds.filter (fun e => descMark e.desc != m), origFwd := s.origFwd ++ [.shutOut m .cancelled] }
      else on
    (findHolder s m = none → exec (.cancel m) s = .next s1)
      ∧ ∀ h, findHolder s m = some h →
        ((getRec s h).state = .aboard → exec (.cancel m) s = .next s1)
          ∧ ((getRec s h).state = .offered →
            exec (.cancel m) s = .next (setRec s1 h { getRec s h with cancelPending := true }))
          ∧ ((getRec s h).state = .reserved →
            exec (.cancel m) s = .next
              (endEvent s
                (capacityFreed
                  (emitFwd (freeRec { s1 with reservations := s.reservations.filter (· != h) } h)
                    (.lapse (recMark (getRec s h)) (recLane (getRec s h)) (getRec s h).sequence .cancelled)))))

/-- CLOCK sets the stow clock to the value carried, and IDENTIFY emits one ID frame up; each is forwarded unchanged and
changes nothing else, running counts included (R76, R161). -/
def Obligations.ClockAndIdentify : Prop :=
  ∀ (s : State),
    (∀ v, Ready .fwd (.clock v) s →
        exec (.clock v) s
          = .next { s with rxFwd := s.rxFwd.tail, passFwd := s.passFwd ++ [.clock v], stowClock := v })
      ∧ (Ready .fwd .identify s →
        exec .identify s
          = .next { s with
              rxFwd := s.rxFwd.tail, passFwd := s.passFwd ++ [.identify]
              origRet := s.origRet
                ++ [.ident s.position s.role Config.serialNumber s.rangeBase s.lanes.length s.voyage] })

/-! ## The Vessel Profile -/

/-- WRITE_RANGE: WRONG_STATE outside SETUP; BAD_FIELD for a base above 255, a count outside 1..64 (a count of 0, which no
frame carries, among them: log 19) or a range past lane 255; otherwise base and count are replaced and every lane is
undefined and empty (R2, R3). WRITE_POLICY: BAD_FIELD for a weight above 7; otherwise the fields carried are replaced, an
offer timeout below 5 taken as 5 and a reservation timeout clamped to 30..3600, and the REPLY gives both as recorded; no
running deadline moves (R17). WRITE_GAPS and WRITE_DEFAULT_UNIT: WRONG_STATE outside SETUP. A gap above 30 is BAD_FIELD, and
the gaps carried are replaced; a short form, a fault of R78 or a height above 600 is BAD_FIELD, and the description is held
field by field, its mark apart (R18, R19). Outside SETUP a short form is WRONG_STATE (log 23), and so is a WRITE_GAPS
without a gap (log 34). -/
def Obligations.WriteRangePolicyAndDefaults : Prop :=
  (∀ (q : ReqHead) (base count : Nat) (s : State), Addressed q (.writeRange base count) s →
      exec (.writeRange q base count) s = .next
        (if s.voyage ≠ .setup then replied q .wrongState .empty s
        else if 255 < base ∨ count < 1 ∨ 64 < count ∨ 255 < base + count - 1 then replied q .badField .empty s
        else
          { replied q .ok .empty s with
            rangeBase := base, lanes := List.replicate count { entry := none, occupants := [], suspect := false } }))
    ∧ (∀ (q : ReqHead) (f : PolicyFields) (s : State), Addressed q (.writePolicy f) s →
        exec (.writePolicy q f) s = .next
          (if 7 < f.wH.getD 0 ∨ 7 < f.wF.getD 0 ∨ 7 < f.wO.getD 0 then replied q .badField .empty s
          else
            let offer := match f.offerTimeout with
              | some b => max 5 b.toNat
              | none => s.policy.offerTimeout
            let res := match f.resTimeout with
              | some b => max 30 (min 3600 b.toNat)
              | none => s.policy.resTimeout
            { replied q .ok (.timeouts offer res) s with
              policy :=
                { wH := f.wH.getD s.policy.wH, wF := f.wF.getD s.policy.wF, wO := f.wO.getD s.policy.wO
                  pEmpty := (f.pEmpty.map BitVec.toNat).getD s.policy.pEmpty, offerTimeout := offer, resTimeout := res } }))
    ∧ (∀ (q : ReqHead) (g : PerKind (Option Nat)) (d : Desc) (s : State),
        (Addressed q (.writeGaps g) s →
            exec (.writeGaps q g) s = .next
              (if s.voyage ≠ .setup then replied q .wrongState .empty s
              else if 30 < g.car.getD 0 ∨ 30 < g.van.getD 0 ∨ 30 < g.truck.getD 0 ∨ 30 < g.artic.getD 0
                  ∨ 30 < g.trailer.getD 0 ∨ 30 < g.project.getD 0 then replied q .badField .empty s
              else
                { replied q .ok .empty s with
                  gaps :=
                    { car := g.car.getD s.gaps.car, van := g.van.getD s.gaps.van, truck := g.truck.getD s.gaps.truck
                      artic := g.artic.getD s.gaps.artic, trailer := g.trailer.getD s.gaps.trailer
                      project := g.project.getD s.gaps.project } }))
          ∧ (Addressed q (.writeDefaultUnit d) s →
            exec (.writeDefaultUnit q d) s = .next
              (if s.voyage ≠ .setup then replied q .wrongState .empty s
              else if descIsLong d = false ∨ descFaulty d = true ∨ 600 < descHeight d then replied q .badField .empty s
              else
                match descKind d with
                | none => replied q .badField .empty s
                | some k =>
                  { replied q .ok .empty s with
                    defaultUnit :=
                      { mark := 0, kind := k, length := descLength d, mass := descMass d, height := descHeight d
                        rank := descRank d, hazard := descHazard d, reefer := descReefer d } })))

/-- WRITE_LANE and WRITE_LANE_UNDEFINE: NO_SUCH outside the range. An undefined lane is defined in SETUP alone, from every
geometry field. A defined lane has the fields carried replaced, geometry in SETUP alone, and its SUSPECT flag cleared;
opening a CLOSED lane in OPEN or CLOSED is a capacity-freed event. A bad value or neighbour is BAD_FIELD. Undefining is
taken in SETUP alone (R5, R6, R7, R8, R9). The fields of a WRITE LANE: Table 1.2's ranges, the two rules on neighbours,
which fields are geometry, Table 1.3's values where a lane is defined without them, and the fields carried taking the place
of those held (R5, R6). -/
def Obligations.WriteLaneAnswers : Prop :=
  (∀ (q : ReqHead) (l : Lane) (f : LaneFields) (s : State),
      (Addressed q (.writeLane l f) s →
          exec (.writeLane q l f) s = .next
            (match slotOf s l with
            | none => replied q .noSuch .empty s
            | some x =>
              match x.entry with
              | none =>
                if s.voyage ≠ .setup then replied q .wrongState .empty s
                else
                  match definedEntry f with
                  | none => replied q .badField .empty s
                  | some e =>
                    if laneFieldsIn f = true ∧ neighboursGood l e = true then
                      { replied q .ok .empty s with lanes := (modifySlot s l fun y => { y with entry := some e }).lanes }
                    else replied q .badField .empty s
              | some e =>
                if s.voyage ≠ .setup ∧ carriesGeometry f = true then replied q .wrongState .empty s
                else if laneFieldsIn f = true ∧ neighboursGood l (updatedEntry e f) = true then
                  let t :=
                    { replied q .ok .empty s with
                      lanes := (modifySlot s l fun y => { y with entry := some (updatedEntry e f), suspect := false }).lanes }
                  if s.voyage ≠ .setup ∧ e.admin = .closed ∧ f.admin = some .opened then endEvent s (capacityFreed t) else t
                else replied q .badField .empty s))
        ∧ (Addressed q (.undefineLane l) s →
          exec (.writeLaneUndefine q l) s = .next
            (if inRange s l = false then replied q .noSuch .empty s
            else if s.voyage ≠ .setup then replied q .wrongState .empty s
            else { replied q .ok .empty s with lanes := (modifySlot s l fun y => { y with entry := none }).lanes })))
    ∧ (∀ (l : Lane) (f : LaneFields) (e : LaneEntry),
        let within := fun (lo hi : Nat) (a : Option Nat) => ∀ v, a = some v → lo ≤ v ∧ v ≤ hi
        let inside := fun (lo hi : Int) (a : Option Int) => ∀ v, a = some v → lo ≤ v ∧ v ≤ hi
        (laneFieldsIn f = true ↔
            within 1 8 f.deck ∧ inside (-250) 250 f.arm ∧ inside (-1500) 1500 f.stopArm ∧ within 50 2500 f.usable
              ∧ within 150 600 f.clearance ∧ within 0 15 f.plugs ∧ (∀ n, f.port = some (some n) → n ≤ 255)
              ∧ (∀ n, f.starboard = some (some n) → n ≤ 255) ∧ within 5 1200 f.unitMass)
          ∧ (neighboursGood l e = true ↔
            e.port ≠ some l ∧ e.starboard ≠ some l ∧ (∀ n, e.port = some n → e.starboard ≠ some n))
          ∧ (carriesGeometry f = false ↔
            f.deck = none ∧ f.arm = none ∧ f.stopArm = none ∧ f.usable = none ∧ f.clearance = none ∧ f.plugs = none
              ∧ f.kinds = none ∧ f.port = none ∧ f.starboard = none)
          ∧ (definedEntry f = some e ↔
            f.deck = some e.deck ∧ f.arm = some e.arm ∧ f.stopArm = some e.stopArm ∧ f.usable = some e.usable
              ∧ f.clearance = some e.clearance ∧ f.plugs = some e.plugs ∧ f.kinds = some e.kinds
              ∧ e.port = f.port.getD none ∧ e.starboard = f.starboard.getD none ∧ e.admin = f.admin.getD .opened
              ∧ e.laneMass = (match f.laneMass with
                | some m => m.toNat
                | none => 65535)
              ∧ e.unitMass = f.unitMass.getD 1200)
          ∧ updatedEntry e f =
            { deck := f.deck.getD e.deck, arm := f.arm.getD e.arm, stopArm := f.stopArm.getD e.stopArm
              usable := f.usable.getD e.usable, clearance := f.clearance.getD e.clearance, plugs := f.plugs.getD e.plugs
              kinds := f.kinds.getD e.kinds, port := f.port.getD e.port, starboard := f.starboard.getD e.starboard
              admin := f.admin.getD e.admin
              laneMass := (match f.laneMass with
                | some m => m.toNat
                | none => e.laneMass)
              unitMass := f.unitMass.getD e.unitMass })

/-- WRITE_DECK and WRITE_DECK_REMOVE: in SETUP an entry is written, FULL where a fifth deck is named; elsewhere only the
limit of a deck present is, WRONG_STATE for another. A deck outside 1..8 or a limit above 1,000,000 is BAD_FIELD. Removing a
deck outside 1..8 is BAD_FIELD, and an absent one NO_SUCH, ahead of WRONG_STATE (R1, R2, R10, R11; log 11). WRITE_SECTION
and WRITE_SECTION_REMOVE: an id above 5 is BAD_FIELD; outside SETUP, or naming a section not STOWED, WRONG_STATE; lists of 1
to 8 distinct lanes, no lane in both, no hoist lane of another section, a clearance of 150..600 and a travel limit of
10..600, or else BAD_FIELD. The section written is STOWED with its timer stopped and a travel limit of 120 where none is
carried (R12, R13). -/
def Obligations.WriteDeckAndSectionAnswer : Prop :=
  (∀ (q : ReqHead) (deck limit : Nat) (s : State),
      (Addressed q (.writeDeck deck limit) s →
          exec (.writeDeck q deck limit) s = .next
            (if deck < 1 ∨ 8 < deck then replied q .badField .empty s
            else if Table.find s.decks deck = none ∧ s.voyage ≠ .setup then replied q .wrongState .empty s
            else if 1000000 < limit then replied q .badField .empty s
            else if Table.find s.decks deck = none ∧ 4 ≤ s.decks.length then replied q .full .empty s
            else { replied q .ok .empty s with decks := Table.put deck limit s.decks }))
        ∧ (Addressed q (.removeDeck deck) s →
          exec (.writeDeckRemove q deck) s = .next
            (if deck < 1 ∨ 8 < deck then replied q .badField .empty s
            else if Table.find s.decks deck = none then replied q .noSuch .empty s
            else if s.voyage ≠ .setup then replied q .wrongState .empty s
            else { replied q .ok .empty s with decks := Table.drop deck s.decks })))
    ∧ (∀ (q : ReqHead) (id : Nat) (hoist covered : List Lane) (reduced : Nat) (travel : Option Nat) (s : State),
        let moving := ∃ e, Table.find s.sections id = some e ∧ e.state ≠ .stowed
        let good := 1 ≤ hoist.length ∧ hoist.length ≤ 8 ∧ hoist.Nodup ∧ 1 ≤ covered.length ∧ covered.length ≤ 8
          ∧ covered.Nodup ∧ (∀ l ∈ hoist, l ∉ covered)
          ∧ (∀ e ∈ s.sections, e.1 ≠ id → ∀ l ∈ hoist, l ∉ e.2.hoist)
          ∧ 150 ≤ reduced ∧ reduced ≤ 600 ∧ (∀ t, travel = some t → 10 ≤ t ∧ t ≤ 600)
        (Addressed q (.writeSection id hoist covered reduced travel) s →
            let run := exec (.writeSection q id hoist covered reduced travel) s
            (5 < id → run = .next (replied q .badField .empty s))
              ∧ (id ≤ 5 → (s.voyage ≠ .setup ∨ moving) → run = .next (replied q .wrongState .empty s))
              ∧ (id ≤ 5 → s.voyage = .setup → ¬moving → ¬good → run = .next (replied q .badField .empty s))
              ∧ (id ≤ 5 → s.voyage = .setup → ¬moving → good →
                  run = .next { replied q .ok .empty s with
                    sections := Table.put id
                      { hoist := hoist, covered := covered, reduced := reduced, travel := travel.getD 120, state := .stowed
                        timer := none } s.sections }))
          ∧ (Addressed q (.removeSection id) s →
            let run := exec (.writeSectionRemove q id) s
            (5 < id → run = .next (replied q .badField .empty s))
              ∧ (id ≤ 5 → (s.voyage ≠ .setup ∨ moving) → run = .next (replied q .wrongState .empty s))
              ∧ (id ≤ 5 → s.voyage = .setup → ¬moving →
                  run = .next { replied q .ok .empty s with sections := Table.drop id s.sections })))

/-- WRITE_SEGREGATION: WRONG_STATE outside SETUP; BAD_FIELD where a class lies outside 1..15 or a code outside 0..4, or for
no triple or more than 16 (which no frame carries: log 19); otherwise each entry (c, d) takes the code of the last triple
that names its unordered pair, and keeps its own where none does (R14). The codes of Table 1.5 (R14). -/
def Obligations.WriteSegregationAnswers : Prop :=
  (∀ (q : ReqHead) (ts : List (Nat × Nat × Nat)) (s : State), Addressed q (.writeSegregation ts) s →
      let good := 1 ≤ ts.length ∧ ts.length ≤ 16
        ∧ ∀ x ∈ ts, 1 ≤ x.1 ∧ x.1 ≤ 15 ∧ 1 ≤ x.2.1 ∧ x.2.1 ≤ 15 ∧ x.2.2 ≤ 4
      (s.voyage ≠ .setup → exec (.writeSegregation q ts) s = .next (replied q .wrongState .empty s))
        ∧ (s.voyage = .setup → ¬good → exec (.writeSegregation q ts) s = .next (replied q .badField .empty s))
        ∧ (s.voyage = .setup → good → ∃ t : State, exec (.writeSegregation q ts) s = .next t
            ∧ t = { replied q .ok .empty s with segregation := t.segregation }
            ∧ ∀ c d, 1 ≤ c → c ≤ 15 → 1 ≤ d → d ≤ 15 →
              segGet t c d =
                match ts.reverse.find? fun x => (x.1 == c && x.2.1 == d) || (x.1 == d && x.2.1 == c) with
                | some x => (segOfCode x.2.2).getD .none
                | none => segGet s c d))
    ∧ (segOfCode 0 = some .none ∧ segOfCode 1 = some .notNeighbour ∧ segOfCode 2 = some .notSameLane
        ∧ segOfCode 3 = some .laneApart ∧ segOfCode 4 = some .deckApart ∧ (∀ n, 4 < n → segOfCode n = none)
        ∧ ∀ c, segOfCode (codeOfSeg c) = some c)

/-- WRITE_LIMITS: BAD_FIELD for a value out of range or T_min not below T_max as they would stand; otherwise the limits
carried are replaced, and in OPEN or CLOSED STABILITY_OUT is set where the projected heel's magnitude exceeds H_lim or the
projected trim lies outside T_min..T_max, and left as it stands otherwise; no occupant moves and no capacity is freed (R15,
R16). -/
def Obligations.WriteLimitsAnswers : Prop :=
  ∀ (q : ReqHead) (h a b : Option Int) (s : State), Addressed q (.writeLimits h a b) s →
    let n : Limits := { hLim := h.getD s.limits.hLim, tMin := a.getD s.limits.tMin, tMax := b.getD s.limits.tMax }
    let good := (∀ v, h = some v → 1 ≤ v ∧ v ≤ 1000000000) ∧ (∀ v, a = some v → -2147483647 ≤ v ∧ v ≤ 2147483647)
      ∧ (∀ v, b = some v → -2147483647 ≤ v ∧ v ≤ 2147483647) ∧ n.tMin < n.tMax
    (¬good → exec (.writeLimits q h a b) s = .next (replied q .badField .empty s))
      ∧ (good → exec (.writeLimits q h a b) s = .next
          (let t := { replied q .ok .empty s with limits := n }
          if s.voyage ≠ .setup
              ∧ (n.hLim < ((projHeel s).natAbs : Int) ∨ projTrim s < n.tMin ∨ n.tMax < projTrim s) then
            endEvent s { t with notices := { s.notices with stabilityOut := true } }
          else t))

/-- READ_PROFILE: each item as it stands, NO_SUCH for a lane outside the range or a deck without an entry, BAD_FIELD for an
index out of range or another selector; the profile is not changed (R20). -/
def Obligations.ReadProfileAnswers : Prop :=
  ∀ (q : ReqHead) (i : ProfileItem) (s : State), Addressed q (.readProfile i) s →
    exec (.readProfile q i) s = .next
      (match i with
      | .summary =>
        replied q .ok
          (.profileSummary s.rangeBase s.lanes.length (definedLanes s).length (s.decks.map Prod.fst)
            (s.sections.map Prod.fst)) s
      | .lane l =>
        if inRange s l = true then replied q .ok (.profileLane (entryOf s l)) s else replied q .noSuch .empty s
      | .deck n =>
        if n < 1 ∨ 8 < n then replied q .badField .empty s
        else
          match Table.find s.decks n with
          | some limit => replied q .ok (.profileDeck n limit) s
          | none => replied q .noSuch .empty s
      | .hoistSection id =>
        if 5 < id then replied q .badField .empty s
        else replied q .ok (.profileSection ((Table.find s.sections id).map sectionView)) s
      | .segregation c =>
        if c < 1 ∨ 15 < c then replied q .badField .empty s
        else
          replied q .ok
            (.profileSegregation
              [segGet s c 1, segGet s c 2, segGet s c 3, segGet s c 4, segGet s c 5, segGet s c 6, segGet s c 7, segGet s c 8,
                segGet s c 9, segGet s c 10, segGet s c 11, segGet s c 12, segGet s c 13, segGet s c 14, segGet s c 15]) s
      | .limits => replied q .ok (.profileLimits s.limits) s
      | .policy => replied q .ok (.profilePolicy s.policy s.gaps) s
      | .defaultUnit => replied q .ok (.profileDefault (descOfUnit s.defaultUnit 0)) s
      | .other _ => replied q .badField .empty s)

/-! ## Reading, evaluation and trials -/

/-- READ_UNIT, READ_LANE and READ_STOW_SUMMARY change nothing but the answer. READ_UNIT: a handle above 511 is BAD_FIELD; a
mark is answered by its holder (with its TRIAL record's handle), else its TRIAL record, else its latest LEFT record, else
NO_SUCH. READ_LANE: NO_SUCH outside the range, ahead of BAD_FIELD for a start place outside 1..40, and that ahead of the OK
of an undefined lane (log 24) (R47, R48, R49). The records a mark finds: the one that holds it in OFFERED, RESERVED or
ABOARD, the TRIAL record with it, and of the LEFT records with it the one latest in the order of departure, each absent
exactly where there is none (R24, R47, R81). What the reads give. A defined lane: its count, the aft end of its last
occupant and of its last ABOARD one, the masses of all and of the ABOARD occupants, its reefers, the rank of the last,
SUSPECT, the hoist hold, the least of its clearance and the reductions in force, and from the start place up to 6 occupants.
The summary: the states' counts over the handles 0..511, general allocation while fewer than 480 are live, offsets, the
moments and deck masses as sums over the occupants, the first 16 SUSPECT lanes and their number. A place counts from 1 at
the forward stop, for a listed record alone (R25, R33, R36, R38, R47, R48, R49). EVALUATE changes nothing but the answer:
NO_SUCH for a lane outside the range or undefined, BAD_FIELD for a faulty or too tall description; for a lane its failed
checks, figures and, none failed, its score; for no lane the counts of candidates and eligible lanes and the best lane with
its figures, or NONE (R71, R72, R73). The candidates are the defined lanes of the range, in ascending number, and the
eligible ones those that pass all fifteen checks at the tail position (R51, R73). -/
def Obligations.StowReadsAndEvaluation : Prop :=
  (∀ (q : ReqHead) (s : State),
      (∀ h, Addressed q (.readUnit (.handle h)) s →
          exec (.readUnit q (.handle h)) s = .next
            (if 511 < h then replied q .badField .empty s
            else replied q .ok (.unitRecord h (getRec s h) (placeOf s h) none) s))
        ∧ (∀ m, Addressed q (.readUnit (.mark m)) s →
          exec (.readUnit q (.mark m)) s = .next
            (match findHolder s m, findTrial s m, findLeft s m with
            | some h, t, _ => replied q .ok (.unitRecord h (getRec s h) (placeOf s h) t) s
            | none, some t, _ => replied q .ok (.unitRecord t (getRec s t) (placeOf s t) none) s
            | none, none, some h => replied q .ok (.unitRecord h (getRec s h) (placeOf s h) none) s
            | none, none, none => replied q .noSuch .empty s))
        ∧ (∀ l n, Addressed q (.readLane l n) s →
          exec (.readLane q l n) s = .next
            (if inRange s l = false then replied q .noSuch .empty s
            else if n < 1 ∨ 40 < n then replied q .badField .empty s
            else
              match entryOf s l with
              | none => replied q .ok .laneUndefined s
              | some e => replied q .ok (.laneView (laneView s l e n)) s))
        ∧ (Addressed q .readStowSummary s →
          exec (.readStowSummary q) s = .next (replied q .ok (.stowSummary (stowSummary s)) s)))
    ∧ (∀ (s : State) (m : Mark), TablesCanonical s →
        let has := fun (sts : List RecState) (h : Handle) => (getRec s h).state ∈ sts ∧ (getRec s h).desc.map UnitDesc.mark = some m
        (∀ h, findHolder s m = some h → has [.offered, .reserved, .aboard] h)
          ∧ (findHolder s m = none → ∀ h, ¬ has [.offered, .reserved, .aboard] h)
          ∧ (∀ h, findTrial s m = some h → has [.trial] h) ∧ (findTrial s m = none → ∀ h, ¬ has [.trial] h)
          ∧ (∀ h, findLeft s m = some h → has [.left] h
            ∧ ∃ a b, s.departures = a ++ h :: b ∧ ∀ g ∈ b, ¬ has [.left] g)
          ∧ (findLeft s m = none → ∀ h ∈ s.departures, ¬ has [.left] h))
    ∧ (∀ (s : State),
        let fig := fun h => getRec s h
        let mass := fun h => recMass (fig h)
        let ab := fun l => (occupantsOf s l).filter fun h => decide ((fig h).state = .aboard)
        let aft := fun (o : List Handle) => match o.getLast? with
          | none => 0
          | some h => recOffset (fig h) + recLength (fig h)
        let total := fun (o : Lane → List Handle) (f : LaneEntry → Handle → Int) =>
          ((definedLanes s).map fun x => ((o x.1).map (f x.2)).sum).sum
        let heel := fun (e : LaneEntry) h => (mass h : Int) * e.arm
        let trim := fun (_ : LaneEntry) h => (mass h : Int) * (fig h).centre.getD 0
        let deckMass := fun (o : Lane → List Handle) (d : Nat) =>
          (((definedLanes s).filter fun x => x.2.deck == d).map fun x => ((o x.1).map mass).sum).sum
        (∀ (l : Lane) (e : LaneEntry) (n : Nat), entryOf s l = some e →
            let v := laneView s l e n
            let o := occupantsOf s l
            v.lane = l ∧ v.count = o.length ∧ v.projFill = aft o ∧ v.commFill = aft (ab l)
              ∧ v.projMass = (o.map mass).sum ∧ v.commMass = ((ab l).map mass).sum
              ∧ v.plugsUsed = (o.filter fun h => recReefer (fig h)).length
              ∧ v.tailRank = o.getLast?.map (fun h => recRank (fig h))
              ∧ (∀ x, slotOf s l = some x → v.suspect = x.suspect)
              ∧ (v.held = true ↔ ∃ x ∈ s.sections, (l ∈ x.2.hoist ∧ x.2.state ≠ .deployed)
                ∨ (l ∈ x.2.covered ∧ x.2.state ≠ .stowed ∧ x.2.state ≠ .deployed))
              ∧ v.clearance ≤ e.clearance
              ∧ (∀ x ∈ s.sections, l ∈ x.2.covered → x.2.state ≠ .stowed → v.clearance ≤ x.2.reduced)
              ∧ (v.clearance = e.clearance
                ∨ ∃ x ∈ s.sections, l ∈ x.2.covered ∧ x.2.state ≠ .stowed ∧ v.clearance = x.2.reduced)
              ∧ v.occupants.length = min 6 (o.length - (n - 1))
              ∧ ∀ i h, i < 6 → o[n - 1 + i]? = some h →
                v.occupants[i]? = some
                  { place := n + i, handle := h, state := (fig h).state, rank := recRank (fig h), offset := recOffset (fig h)
                    length := recLength (fig h) })
          ∧ (let v := stowSummary s
            v.general = decide (v.offered + v.trial + v.reserved + v.aboard < 480)
              ∧ v.heelOffset = s.heelOffset ∧ v.trimOffset = s.trimOffset
              ∧ v.projHeel = s.heelOffset + total (occupantsOf s) heel ∧ v.projTrim = s.trimOffset + total (occupantsOf s) trim
              ∧ v.commHeel = s.heelOffset + total ab heel ∧ v.commTrim = s.trimOffset + total ab trim
              ∧ v.decks = s.decks.map (fun d => (d.1, deckMass (occupantsOf s) d.1, deckMass ab d.1))
              ∧ (let lanes := ((laneSlots s).filter fun x => x.2.suspect).map Prod.fst
                v.suspects = lanes.take 16 ∧ v.suspectCount = lanes.length)
              ∧ (TablesCanonical s → (∀ x ∈ s.records, x.2.state ≠ .free) →
                let count := fun st => ((List.range 512).filter fun h => decide ((fig h).state = st)).length
                v.free = count .free ∧ v.offered = count .offered ∧ v.trial = count .trial ∧ v.reserved = count .reserved
                  ∧ v.aboard = count .aboard ∧ v.left = count .left
                  ∧ v.free + v.offered + v.trial + v.reserved + v.aboard + v.left = 512))
          ∧ ∀ (h : Handle) (p : Nat), placeOf s h = some p ↔
            isLive (fig h).state = true ∧ 1 ≤ p ∧ ∃ l, (fig h).lane = some l ∧ (occupantsOf s l)[p - 1]? = some h
              ∧ ∀ i, i < p - 1 → (occupantsOf s l)[i]? ≠ some h)
    ∧ (∀ (q : ReqHead) (d : Desc) (lane : Option Lane) (s : State), Addressed q (.evaluate d lane) s →
        exec (.evaluate q d lane) s = .next
          (match lane.map (entryOf s), descExactUnit d with
          | some none, _ => replied q .noSuch .empty s
          | _, none => replied q .badField .empty s
          | some (some e), some u =>
            let p := tailPlacement s (lane.getD 0) e u
            let failed := allChecks.filter fun k => !checkPasses s (lane.getD 0) e u p k
            replied q .ok
              (.evalLane (lane.getD 0) failed p.offset p.fillAfter p.hAfter p.tAfter
                (if failed = [] then some (score s (lane.getD 0) e u) else none)) s
          | none, some u =>
            match bestLane s u with
            | none => replied q .ok (.evalNone (definedLanes s).length (eligibleLanes s u).length) s
            | some b =>
              replied q .ok
                (.evalBest (definedLanes s).length (eligibleLanes s u).length b.lane b.score b.place.offset b.place.fillAfter
                  b.place.hAfter b.place.tAfter) s))
    ∧ (∀ (s : State) (u : UnitDesc),
        (∀ l e, (l, e) ∈ definedLanes s ↔ entryOf s l = some e)
          ∧ (definedLanes s).Pairwise (fun x y => x.1 < y.1)
          ∧ (eligibleLanes s u).Sublist (definedLanes s)
          ∧ ∀ l e, (l, e) ∈ eligibleLanes s u ↔
            (l, e) ∈ definedLanes s ∧ ∀ k, checkPasses s l e u (tailPlacement s l e u) k = true)

/-- TRIAL, with the first outcome that applies: WRONG_STATE outside OPEN, BAD_FIELD, FULL with 5 trials, DUPLICATE where a
TRIAL or holder has the mark, FULL with RECORDS_LOW where general allocation is refused, NONE without a best lane; or a new
TRIAL record at the tail of the best lane, pushed on the stack (R112). With a best lane and no record to be had, which no
run reaches, the answer is FULL with RECORDS_LOW (log 21). -/
def Obligations.TrialAnswers : Prop :=
  ∀ (q : ReqHead) (d : Desc) (s : State), Addressed q (.trial d) s →
    exec (.trial q d) s = .next
      (if s.voyage ≠ .opened then replied q .wrongState .empty s
      else
        match descExactUnit d with
        | none => replied q .badField .empty s
        | some u =>
          if 5 ≤ s.trials.length then replied q .full .empty s
          else if (findTrial s u.mark).isSome = true ∨ (findHolder s u.mark).isSome = true then
            replied q .duplicate .empty s
          else if 480 ≤ liveCount s then
            endEvent s { replied q .full .empty s with notices := { s.notices with recordsLow := true } }
          else
            match bestLane s u, allocate (took .fwd s) with
            | none, _ => replied q .ok .trialNone s
            | some _, none => endEvent s { replied q .full .empty s with notices := { s.notices with recordsLow := true } }
            | some b, some (h, s1) =>
              let s2 := listAtTail
                (setRec s1 h { freeRecord with state := .trial, desc := some u, changed := true }) h b.lane
              endEvent s
                { s2 with
                  trials := h :: s.trials, pendingClear := false
                  origRet := s.origRet
                    ++ [.reply q.tag s.position .ok
                      (.trialPlaced h b.lane b.place.offset b.score (s.trials.length + 1))] })

/-- UNDO: NO_SUCH on an empty stack; otherwise the top trial is popped and its record freed, and capacity is freed after the
REPLY (R105, R113). COMMIT_TRIALS: FULL past 64 offers, reservations and trials; otherwise the stack is emptied, each trial
converted or discarded from the bottom up, the REPLY gives both numbers, which add up to the trials there were, and capacity
is freed where at least one was discarded (R114). One trial of a COMMIT TRIALS: discarded where a holder has its mark or its
lane is a hoist lane of a section not DEPLOYED; otherwise RESERVED in place, its place, offset and description kept, with a
full deadline (R44, R98, R114). -/
def Obligations.UndoAndCommitTrialsAnswer : Prop :=
  (∀ (q : ReqHead) (s : State), Addressed q .undo s →
      exec (.undo q) s = .next
        (match s.trials with
        | [] => replied q .noSuch .empty s
        | h :: rest =>
          let t := freeRec { took .fwd s with trials := rest } h
          endEvent s
            (capacityFreed
              { t with
                pendingClear := false
                origRet := s.origRet
                  ++ [.reply q.tag s.position .ok (.undone h (recMark (getRec s h)) rest.length)] })))
    ∧ (∀ (q : ReqHead) (s : State), Addressed q .commitTrials s →
        (64 < s.offers.length + s.reservations.length + s.trials.length →
            exec (.commitTrials q) s = .next (replied q .full .empty s))
          ∧ (s.offers.length + s.reservations.length + s.trials.length ≤ 64 →
            let c := commitEach s.trials.reverse { st := { took .fwd s with trials := [] }, converted := 0, discarded := 0 }
            let t :=
              { c.st with
                pendingClear := false
                origRet := s.origRet ++ [.reply q.tag s.position .ok (.committed c.converted c.discarded)] }
            exec (.commitTrials q) s = .next (if 0 < c.discarded then endEvent s (capacityFreed t) else t)
              ∧ c.st.trials = [] ∧ c.converted + c.discarded = s.trials.length
              ∧ c.st.reservations.length ≤ s.reservations.length + c.converted))
    ∧ (∀ (h : Handle) (rest : List Handle) (c : Committed),
        commitEach (h :: rest) c = commitEach rest
          (if (findHolder c.st (recMark (getRec c.st h))).isSome = true
              ∨ (∃ e ∈ c.st.sections, ((getRec c.st h).lane.getD 0) ∈ e.2.hoist ∧ e.2.state ≠ .deployed) then
            { c with st := freeRec c.st h, discarded := c.discarded + 1 }
          else { c with st := makeReserved c.st h, converted := c.converted + 1 })
          ∧ getRec (makeReserved c.st h) h =
            { getRec c.st h with
              state := .reserved, changed := true, deadline := some (10 * c.st.policy.resTimeout) }
          ∧ (makeReserved c.st h).lanes = c.st.lanes)

/-- READ_HOLD_LIST: WRONG_ROLE at a MID or TAIL, BAD_FIELD for a start place outside 1..32; otherwise the number of entries
and up to four of them from the start place on, and nothing changes (R110). The role comes first (log 25). -/
def Obligations.ReadHoldListAnswers : Prop :=
  ∀ (q : ReqHead) (n : Nat) (s : State), Addressed q (.readHoldList n) s →
    exec (.readHoldList q n) s = .next
      (if s.role = .mid ∨ s.role = .tail then replied q .wrongRole .empty s
      else if n < 1 ∨ 32 < n then replied q .badField .empty s
      else
        replied q .ok
          (.holdList s.holds.length
            (((s.holds.drop (n - 1)).take 4).mapIdx fun i e =>
              { place := n + i, mark := descMark e.desc, kind := descKind e.desc, rank := descRank e.desc, reason := e.reason
                heldSince := e.heldSince, retries := e.retries })) s)

/-! ## Voyage Control -/

/-- OPEN_VOYAGE: WRONG_STATE outside SETUP; PROFILE_BAD with table, index and fault where the profile has one (which of
several sections' faults: log 26); otherwise OPEN, and nothing else changes (R151). Which profile opens: some lane is
defined; every defined lane's deck has an entry, its F − U is at least −1500, and each neighbour present is a defined lane
of the range; every lane of every section is a defined lane of the range (R152). Which fault PROFILE_BAD names (Table 8.2):
with no lane defined, RANGE with the range count; else the lowest-numbered defined lane with a fault and the first of its
tests that fails, deck, F − U, port, starboard; else, every lane being sound, the first section of the table with a lane
that is not a defined lane of the range, its hoist lanes ahead of its covered ones (log 26) (R152). -/
def Obligations.OpenVoyageWhenProfileSound : Prop :=
  (∀ (q : ReqHead) (s : State), Addressed q .openVoyage s →
      exec (.openVoyage q) s = .next
        (if s.voyage ≠ .setup then replied q .wrongState .empty s
        else
          match profileError s with
          | some e => replied q .profileBad (.profileBad e.table e.index e.fault) s
          | none => { replied q .ok .empty s with voyage := .opened }))
    ∧ (∀ (s : State),
        profileError s = none ↔
          definedLanes s ≠ []
            ∧ (∀ l e, (l, e) ∈ definedLanes s →
                Table.find s.decks e.deck ≠ none ∧ -1500 ≤ e.stopArm - (e.usable : Int)
                  ∧ (∀ n, e.port = some n → entryOf s n ≠ none) ∧ (∀ n, e.starboard = some n → entryOf s n ≠ none))
            ∧ ∀ x ∈ s.sections, ∀ l, l ∈ x.2.hoist ∨ l ∈ x.2.covered → entryOf s l ≠ none)
    ∧ (∀ (s : State),
        let missing := fun (n : Lane) => entryOf s n = none
        let fault := fun (e : LaneEntry) =>
          if Table.find s.decks e.deck = none then some ProfileFault.deckMissing
          else if e.stopArm - (e.usable : Int) < -1500 then some ProfileFault.stopArm
          else if ∃ n, e.port = some n ∧ missing n then some ProfileFault.portNeighbour
          else if ∃ n, e.starboard = some n ∧ missing n then some ProfileFault.starboardNeighbour
          else none
        (definedLanes s = [] → profileError s = some ⟨.range, s.lanes.length, .noLaneDefined⟩)
          ∧ (∀ l e f, (l, e) ∈ definedLanes s → fault e = some f →
            (∀ l' e', (l', e') ∈ definedLanes s → l' < l → fault e' = none) → profileError s = some ⟨.lane, l, f⟩)
          ∧ (definedLanes s ≠ [] → (∀ l e, (l, e) ∈ definedLanes s → fault e = none) →
            ∀ a x b, s.sections = a ++ x :: b → (∀ y ∈ a, ∀ n, n ∈ y.2.hoist ∨ n ∈ y.2.covered → ¬ missing n) →
              ((∃ n ∈ x.2.hoist, missing n) → profileError s = some ⟨.sections, x.1, .hoistLane⟩)
              ∧ ((∀ n ∈ x.2.hoist, ¬ missing n) → (∃ n ∈ x.2.covered, missing n) →
                profileError s = some ⟨.sections, x.1, .coveredLane⟩)))

/-- CLEAR_VOYAGE: OK without effect in SETUP; PENDING, pending-clear set and nothing else changed, where it was clear; else
the second step: SETUP, every record FREE, every list empty, offsets 0, every section STOWED with its timer stopped, the
report abandoned, its waiting frames removed (log 27), REPLY and REPORT ABORTED behind the frames still queued, the one
ahead of the other or the other ahead of the one (log 10); profile, log, notices, enables, armed, stow clock, chain sequence
and serial stand (R156, R158, R173, R186). -/
def Obligations.ClearVoyageInTwoSteps : Prop :=
  ∀ (q : ReqHead) (s : State), Addressed q .clearVoyage s →
    let reply := fun (code : ReplyCode) => Frame.reply q.tag s.position code .empty
    let on := took .fwd s
    (s.voyage = .setup → exec (.clearVoyage q) s = .next { on with origRet := s.origRet ++ [reply .ok] })
      ∧ (s.voyage ≠ .setup → s.pendingClear = false →
        exec (.clearVoyage q) s = .next { on with pendingClear := true, origRet := s.origRet ++ [reply .pending] })
      ∧ (s.voyage ≠ .setup → s.pendingClear = true → ∃ t : State, exec (.clearVoyage q) s = .next t
        ∧ t = { on with
                records := [], departures := [], offers := [], reservations := [], trials := [], holds := []
                heelOffset := 0, trimOffset := 0, pendingClear := false, voyage := .setup
                lanes := s.lanes.map fun x => { x with occupants := [], suspect := false }
                sections := s.sections.map fun e => (e.1, { e.2 with state := .stowed, timer := none })
                reportState := .idle, reportTimer := none, report := none, emitting := false, buffer := []
                heldToken := none
                origFwd := s.origFwd.filter fun f => !isReportFrame f
                origRet := t.origRet }
        ∧ (let kept := s.origRet.filter fun f => !isReportFrame f
          let aborted := if (s.role = .head ∨ s.role = .sole) ∧ s.reportState ≠ .idle then
            [Frame.reportAborted (serialInProgress s)] else []
          t.origRet = kept ++ reply .ok :: aborted ∨ t.origRet = kept ++ aborted ++ [reply .ok]))

/-- BALLAST: WRONG_STATE in SETUP; otherwise both offsets are recorded, clamped to ±1,000,000,000, the REPLY gives them with
the projected moments, STABILITY_OUT is set where one is out of limits, and capacity is freed after the REPLY (R162).
READ_VOYAGE: the role, position, voyage state, pending-clear as it stood, stow clock, offsets and projected moments, each
with whether it is out of limits; pending-clear is then cleared and nothing else changes (R163). -/
def Obligations.BallastAndReadVoyage : Prop :=
  (∀ (q : ReqHead) (h v : BitVec 32) (s : State), Addressed q (.ballast h v) s →
      let heel : Int := max (-1000000000) (min 1000000000 h.toInt)
      let trim : Int := max (-1000000000) (min 1000000000 v.toInt)
      let newHeel := projHeel s - s.heelOffset + heel
      let newTrim := projTrim s - s.trimOffset + trim
      let out := s.limits.hLim < (newHeel.natAbs : Int) ∨ newTrim < s.limits.tMin ∨ s.limits.tMax < newTrim
      exec (.ballast q h v) s = .next
        (if s.voyage = .setup then replied q .wrongState .empty s
        else
          let t :=
            { replied q .ok (.ballast heel trim newHeel newTrim) s with
              heelOffset := heel, trimOffset := trim
              notices := { s.notices with stabilityOut := s.notices.stabilityOut || decide out } }
          endEvent s (capacityFreed t)))
    ∧ (∀ (q : ReqHead) (s : State), Addressed q .readVoyage s →
        exec (.readVoyage q) s = .next
          (replied q .ok
            (.voyage
              { role := s.role, position := s.position, voyage := s.voyage, pendingClear := s.pendingClear, clock := s.stowClock
                heelOffset := s.heelOffset, trimOffset := s.trimOffset, projHeel := projHeel s, projTrim := projTrim s
                heelOut := decide (s.limits.hLim < ((projHeel s).natAbs : Int))
                trimOut := decide (projTrim s < s.limits.tMin ∨ s.limits.tMax < projTrim s) }) s))

/-! ## The log and the notices by request -/

/-- DRAIN_LOG: BAD_FIELD for a count outside 1..3, and nothing is removed; otherwise up to that many oldest records are
removed and given in order, with the number left and the next sequence number; no notice flag changes (R177). -/
def Obligations.DrainLogAnswers : Prop :=
  ∀ (q : ReqHead) (n : Nat) (s : State), Addressed q (.drainLog n) s →
    exec (.drainLog q n) s = .next
      (if n < 1 ∨ 3 < n then replied q .badField .empty s
      else
        { replied q .ok (.drained (s.log.take n) (s.log.length - n) s.nextExc) s with log := s.log.drop n })

/-- ACK_NOTICES: the flags named are cleared, armed is set, and the REPLY shows flags, enables and armed as they then stand;
an enabled flag still set then gives ATTENTION behind the REPLY, and armed is cleared (R180). SET_ENABLES: the nine enables
are replaced, flags and armed stand, and the REPLY shows all three; where armed is set and a newly enabled flag is set,
ATTENTION follows the REPLY and armed is cleared (R181). -/
def Obligations.AckNoticesAndSetEnables : Prop :=
  (∀ (q : ReqHead) (flags : NoticeSet) (s : State), Addressed q (.ackNotices flags) s →
      let left := noticeMinus s.notices flags
      let t := { replied q .ok (.notices left s.enables true) s with notices := left, armed := true }
      exec (.ackNotices q flags) s = .next
        (if noticeAny (noticeAnd left s.enables) = true then
          { t with origRet := t.origRet ++ [.attention s.position left s.log.length s.nextExc], armed := false }
        else t))
    ∧ (∀ (q : ReqHead) (enables : NoticeSet) (s : State), Addressed q (.setEnables enables) s →
        let t := { replied q .ok (.notices s.notices enables s.armed) s with enables := enables }
        exec (.setEnables q enables) s = .next
          (if s.armed = true ∧ noticeAny (noticeAnd s.notices (noticeMinus enables s.enables)) = true then
            { t with origRet := t.origRet ++ [.attention s.position s.notices s.log.length s.nextExc], armed := false }
          else t))

/-! ## Conditions that every step keeps -/

/-- The reset state meets all the conditions below. -/
def Obligations.ResetMeetsTheConditions : Prop :=
  WithinSizes State.reset ∧ ArmedQuiet State.reset ∧ TablesCanonical State.reset ∧ VoyageConsistent State.reset
    ∧ MapAgrees State.reset ∧ WithinRooms State.reset ∧ PendingPacked State.reset ∧ ReservationsInOrder State.reset
    ∧ OneHolder State.reset ∧ SegregationSymmetric State.reset

/-- Every step keeps the sizes of the lane range, the deck table, the receive queues, the exception log, the hold list and
the trial stack, and with them the other laws of the hold list: no two entries of one mark, and every retry count in 0..14
(R3, R10, R106, R111, R176, R183). -/
def Obligations.StepKeepsSizes : Prop :=
  ∀ (s t : State), WithinSizes s → TablesCanonical s → step s = .next t → WithinSizes t

/-- Every step keeps the condition of R179: while armed is set, no enabled flag is set. -/
def Obligations.StepKeepsArmedQuiet : Prop :=
  ∀ (s t : State), ArmedQuiet s → step s = .next t → ArmedQuiet t

/-- Every step keeps the unit table, the deck table, the section table and the segregation matrix in canonical form, and no
handle at or above 512 held anywhere. Every step keeps the Stow Map and the lists in agreement: each live record listed
once, in its own lane, each lane's ABOARD occupants ahead of its pending ones, and the offer, reservation and trial lists
and the order of departure holding exactly the records in those states (R27, R29, R86, R97, R111). Every step keeps the
occupant lists within 40, the offers within 8 and offers and reservations together within 64, in states whose map and lists
agree (R29, R84). Every step keeps every lane's pending part packed behind its ABOARD part, and the reservation list in
order of deadline, in states whose map and lists agree (R32, R97). Every step keeps one holder at most for a mark, in states
whose map and lists agree (R24). Every step keeps the segregation matrix symmetric (R14). -/
def Obligations.StepKeepsTables : Prop :=
  (∀ (s t : State), TablesCanonical s → step s = .next t → TablesCanonical t)
    ∧ (∀ (s t : State), MapAgrees s → WithinRooms s → TablesCanonical s → VoyageConsistent s → step s = .next t → MapAgrees t)
    ∧ (∀ (s t : State), WithinRooms s → MapAgrees s → TablesCanonical s → VoyageConsistent s → step s = .next t → WithinRooms t)
    ∧ (∀ (s t : State), PendingPacked s → ReservationsInOrder s → MapAgrees s → WithinRooms s → TablesCanonical s →
        VoyageConsistent s → step s = .next t → PendingPacked t ∧ ReservationsInOrder t)
    ∧ (∀ (s t : State), OneHolder s → MapAgrees s → WithinRooms s → TablesCanonical s → VoyageConsistent s → step s = .next t →
        OneHolder t)
    ∧ (∀ (s t : State), SegregationSymmetric s → step s = .next t → SegregationSymmetric t)

/-- Every step keeps what R111, R150, R153 and R156 say of an engine outside OPEN: no offer, reservation, trial or hold-list
entry; in SETUP no record but FREE ones, no departure, every lane list empty and pending-clear clear; and what R106 says of
a MID or TAIL. -/
def Obligations.StepKeepsVoyageConsistent : Prop :=
  ∀ (s t : State), VoyageConsistent s → step s = .next t → VoyageConsistent t

/-! ## Encodings -/

/-- Numbers are read back most significant byte first (R182). Unit descriptions: where each field of Table 11.3 (12 bytes)
and of Table 11.4 (9 bytes) stands, and the bytes give the description back (R190). Bid blocks: where each field of Table
11.5 stands under each status, an absent field written 0, and the six bytes give the block back (R191); an offset beyond 16
bits leaves the other fields as they stand (log 30), and a state of code 0 is read as none (log 35). A frame built from a
body of at most 67 bytes is 8 to 72 bytes long and passes the tests of an arriving frame, whatever bytes come before its
delimiter; and so does every frame an output drives, whatever the layouts and codes not printed (R182, R184). What stands
where in a driven body: a REQUEST begins with target, tag and kind, a REPLY with tag, position and outcome; the description
of a CHECK-IN, CONFIRM, TALLY-ON or default-unit reply stands in it whole, and so does a bid block; WRITE RANGE carries its
count as count − 1, and SUMMARY and ID the count of the range, which can be 0, as it is (R3, R20, R76); signed numbers are
in two's complement; a request or fast order without a body carries none (R182, R187, R190, R191). The model's choices here:
target and position take a byte each, and a number below 2^32 takes whole bytes of its own, 1 to 4, which give it back; a
NO_ENGINE reply carries the target alone and a SEGREGATION reply its codes alone, in class order (log 9, log 29). The order
of the fields and the codes not printed stay open (log 9). Exception records and report entries: where each field of Table
11.6 (20 bytes) and Table 11.7 (10 bytes, 11 at a run start) stands, an absent field written 0, and an offset that does not
fit its 14 bits leaving the other fields as they stand (log 30); a DRAIN LOG reply's body: tag, position, outcome, number of
records, number left, next sequence number in 2 bytes, records; and a REPORT RECORDS body: the serial and its entries (R169,
R170, R177, R191). -/
def Obligations.EncodingsAreReadBack : Prop :=
  ((∀ (l : List Byte) (b : Byte), beNat [] = 0 ∧ beNat (l ++ [b]) = 256 * beNat l + b.toNat)
      ∧ (∀ (d : Desc), descOfBytes (descBytes d) = some d
        ∧ (descBytes d).length = (if descIsLong d then 12 else 9))
      ∧ (∀ (k : BitVec 3) (r : Bool) (n : BitVec 3) (m : Mark) (l : Byte) (w h : BitVec 16) (z : Byte),
        let word := fun (i j : Nat) => beNat (((descBytes (.long k r n m l w h z)).drop i).take j)
        word 0 1 / 128 = 1 ∧ word 0 1 / 16 % 8 = k.toNat ∧ (word 0 1 / 8 % 2 = 1 ↔ r = true) ∧ word 0 1 % 8 = n.toNat
          ∧ word 1 5 = m.toNat ∧ word 6 1 = l.toNat ∧ word 7 2 = w.toNat ∧ word 9 2 = h.toNat ∧ word 11 1 = z.toNat)
      ∧ ∀ (k n : BitVec 3) (m : Mark) (l w : BitVec 6) (h : BitVec 3),
        let word := fun (i j : Nat) => beNat (((descBytes (.short k n m l w h)).drop i).take j)
        word 0 1 / 128 = 0 ∧ word 0 1 / 16 % 8 = k.toNat ∧ word 0 1 / 8 % 2 = 0 ∧ word 0 1 % 8 = n.toNat
          ∧ word 1 5 = m.toNat ∧ word 6 1 = 4 * l.toNat ∧ word 7 1 = 4 * w.toNat ∧ word 8 1 = h.toNat)
    ∧ ((∀ (b : BidBlock), b.wf = true → bidOfBytes (bidBytes b) = some b)
        ∧ (∀ (b : BidBlock), (bidBytes b).length = 6)
        ∧ bidBytes .none = [0, 0, 0, 0, 0, 0] ∧ bidBytes .invalid = [0xC0, 0, 0, 0, 0, 0]
        ∧ (∀ (sc : Nat) (p : Pos) (l : Lane) (o : Nat), sc < 65536 → l < 256 →
          let word := fun (i j : Nat) => beNat (((bidBytes (.bid sc p l o)).drop i).take j)
          word 0 1 / 64 = 1 ∧ word 0 1 / 16 % 4 = p.toNat ∧ word 0 1 % 16 = 0 ∧ word 1 2 = sc ∧ word 3 1 = l
            ∧ (o < 65536 → word 4 2 = o))
        ∧ ∀ (p : Pos) (l : Lane) (o : Nat) (st : Option HolderState), l < 256 →
          let word := fun (i j : Nat) => beNat (((bidBytes (.duplicate p l o st)).drop i).take j)
          let states : List (Option HolderState) := [none, some .offered, some .reserved, some .aboard]
          word 0 1 / 64 = 2 ∧ word 0 1 / 16 % 4 = p.toNat ∧ states[word 0 1 / 4 % 4]? = some st ∧ word 0 1 % 4 = 0
            ∧ word 1 2 = 0 ∧ word 3 1 = l ∧ (o < 65536 → word 4 2 = o))
    ∧ ((∀ (type : Byte) (body junk : List Byte), body.length ≤ 67 → (∀ b ∈ junk, b ≠ 0x7E#8) →
        8 ≤ (frameBytes type body).length ∧ (frameBytes type body).length ≤ 72
          ∧ testArrival (junk ++ frameBytes type body) = .passes)
        ∧ ∀ f : Frame, 8 ≤ (frameWire f).length ∧ (frameWire f).length ≤ 72 ∧ testArrival (frameWire f) = .passes)
    ∧ ((∀ (q : ReqHead) (b : ReqBody), (∀ k l, b ≠ .malformed k l) →
          (frameBody (.request q b)).take 3 = [BitVec.ofNat 8 q.target.toNat, q.tag, Config.requestKind b])
        ∧ (∀ (tag : Byte) (pos : Pos) (code : ReplyCode) (b : ReplyBody),
          (frameBody (.reply tag pos code b)).take 3 = [tag, BitVec.ofNat 8 pos.toNat, Config.outcomeCode code])
        ∧ (∀ c : CheckIn, descBytes c.desc <:+: frameBody (.checkIn c) ∧ bidBytes c.bid <:+: frameBody (.checkIn c))
        ∧ (∀ c : Confirm, descBytes c.desc <:+: frameBody (.confirm c))
        ∧ (∀ (m : Mark) (l : Lane) (d : Desc) (placed : Bool), descBytes d <:+: frameBody (.tallyOn m l (some d) placed))
        ∧ (∀ (tag : Byte) (pos : Pos) (code : ReplyCode) (d : Desc),
          descBytes d <:+: frameBody (.reply tag pos code (.profileDefault d)))
        ∧ (∀ (q : ReqHead) (base count : Nat),
          let f : Frame := .request q (.writeRange base count)
          beBytes 1 base <:+: frameBody f
            ∧ (count ≤ 64 → ∃ k, 1 ≤ k ∧ k ≤ 4 ∧ beBytes k (count - 1) <:+: frameBody f ∧ beNat (beBytes k (count - 1)) = count - 1))
        ∧ (∀ (f : Frame) (i j n : Nat), n < 2 ^ 32 →
          let b := fieldBytes f i j (.number n)
          beNat b = n ∧ 1 ≤ b.length ∧ b.length ≤ 4)
        ∧ (∀ (tag : Byte) (pos p : Pos) (code : ReplyCode), ∃ k, 1 ≤ k ∧ k ≤ 4
          ∧ frameBody (.reply tag pos code (.target p))
            = [tag, BitVec.ofNat 8 pos.toNat, Config.outcomeCode code] ++ beBytes k p.toNat)
        ∧ (∀ (tag : Byte) (pos : Pos) (code : ReplyCode) (codes : List SegCode), codes.length ≤ 15 →
          let f : Frame := .reply tag pos code (.profileSegregation codes)
          frameBody f = [tag, BitVec.ofNat 8 pos.toNat, Config.outcomeCode code]
            ++ (codes.mapIdx fun j c =>
              fieldBytes f 0 j (.number ([SegCode.none, .notNeighbour, .notSameLane, .laneApart, .deckApart].idxOf c))).flatten)
        ∧ (∀ (tag : Byte) (pos : Pos) (code : ReplyCode) (base count defined : Nat) (decks sections : List Nat), count < 2 ^ 32 →
          ∃ k, 1 ≤ k ∧ k ≤ 4 ∧ beNat (beBytes k count) = count
            ∧ beBytes 1 base ++ beBytes k count <:+: frameBody (.reply tag pos code (.profileSummary base count defined decks sections)))
        ∧ (∀ (pos : Pos) (role : Role) (serial : BitVec 32) (base count : Nat) (v : Voyage), count < 2 ^ 32 →
          let f : Frame := .ident pos role serial base count v
          beBytes 4 serial.toNat <:+: frameBody f ∧ beBytes 1 base <:+: frameBody f
            ∧ ∃ k, 1 ≤ k ∧ k ≤ 4 ∧ beNat (beBytes k count) = count ∧ beBytes k count <:+: frameBody f)
        ∧ (∀ (q : ReqHead) (b : ReqBody),
          b = .readStowSummary ∨ b = .undo ∨ b = .commitTrials ∨ b = .openVoyage ∨ b = .clearVoyage ∨ b = .readVoyage →
            frameBody (.request q b) = [BitVec.ofNat 8 q.target.toNat, q.tag, Config.requestKind b])
        ∧ frameBody .sealOrder = [] ∧ frameBody .abort = []
        ∧ ∀ (k : Nat) (i : Int), 1 ≤ k → -(2 ^ (8 * k - 1) : Int) ≤ i → i < 2 ^ (8 * k - 1) →
          signedOfBytes (signedBytes k i) = i ∧ (signedBytes k i).length = k)
    ∧ ((∀ (r : ExcRecord),
          let b := excBytes r
          let word := fun (i k : Nat) => beNat ((b.drop i).take k)
          let kinds : List ExcKind :=
            [.order, .wrongLane, .forced, .limit, .restow, .exitOrder, .unknownExit, .unplaced, .unrecorded, .lateConfirm
              , .overcarried, .hoistTimeout, .hoistLate, .hoistUnpermitted, .hoistMoving, .tallyClosed]
          let checks : List Check :=
            [.kind, .closed, .held, .suspect, .count, .height, .unitMass, .length, .laneMass, .deckMass, .plug, .order, .hazard
              , .heel, .trim]
          b.length = 20 ∧ word 0 2 = r.sequence.toNat ∧ word 2 4 = r.clock.toNat ∧ kinds[word 6 1 / 16]? = some r.kind
            ∧ (word 6 1 / 8 % 2 = 1 ↔ r.mark ≠ none) ∧ (word 6 1 / 4 % 2 = 1 ↔ r.lane ≠ none)
            ∧ (word 6 1 / 2 % 2 = 1 ↔ r.second ≠ none) ∧ (word 6 1 % 2 = 1 ↔ r.detail ≠ none)
            ∧ word 7 5 = (r.mark.map BitVec.toNat).getD 0 ∧ word 12 1 = r.lane.getD 0 % 256
            ∧ word 13 5 = (r.second.map BitVec.toNat).getD 0 ∧ (r.detail = none → word 18 2 = 0)
            ∧ (∀ id, r.detail = some (.hoistSection id) → word 18 2 = id % 65536)
            ∧ ∀ failed, r.detail = some (.checks failed) → word 18 2 < 32768
              ∧ ∀ n c, checks[n]? = some c → (word 18 2 / 2 ^ n % 2 = 1 ↔ c ∈ failed))
        ∧ (∀ (pos : Pos) (run : Bool) (e : ReportEntry), e.state ≠ .free → 1 ≤ e.rank → e.rank ≤ 8 → e.mass < 2048 →
            e.lane ≤ 255 →
            let b := entryBytes pos run e
            let word := fun (i k : Nat) => beNat ((b.drop i).take k)
            let kinds : List UnitKind := [.car, .van, .truck, .artic, .trailer, .project]
            let states : List RecState := [.offered, .trial, .reserved, .aboard, .left]
            b.length = (if run then 11 else 10)
              ∧ kinds[word 0 1 / 32]? = some e.kind ∧ states[word 0 1 / 4 % 8]? = some e.state
              ∧ (word 0 1 / 2 % 2 = 1 ↔ e.forced = true) ∧ (word 0 1 % 2 = 1 ↔ e.defaulted = true)
              ∧ word 1 1 / 32 + 1 = e.rank ∧ word 1 1 / 4 % 8 * 256 + word 7 1 = e.mass ∧ word 1 1 % 4 = pos.toNat
              ∧ word 2 5 = e.mark.toNat ∧ (word 8 2 / 32768 = 1 ↔ run = true)
              ∧ (e.offset.getD 0 < 16384 → word 8 2 % 16384 = e.offset.getD 0)
              ∧ (run = true → word 10 1 = e.lane))
        ∧ (∀ (tag : Byte) (pos : Pos) (code : ReplyCode) (records : List ExcRecord) (left : Nat) (next : Seq),
            records.length ≤ 3 →
            frameBody (.reply tag pos code (.drained records left next))
              = [tag, BitVec.ofNat 8 pos.toNat, Config.outcomeCode code, BitVec.ofNat 8 records.length, BitVec.ofNat 8 left]
                ++ beBytes 2 next.toNat ++ records.flatMap excBytes)
        ∧ ∀ (serial : Byte) (pos : Pos) (es : List (Bool × ReportEntry)), es.length ≤ 6 →
          frameBody (.reportRecords serial pos es) = serial :: es.flatMap fun e => entryBytes pos e.1 e.2)
end

