-- ==== Sys2Proof/Laws/State.lean ====
section
/-! SUPPORT. What each plain update of the state leaves and writes, field by field: one lemma a field, for `simp`. -/

namespace Sys2Proof.Machine

variable (s : State)

/-! ## setRec -/

@[simp] theorem setRec_pending (h : Handle) (r : UnitRec) : (setRec s h r).pending = s.pending := rfl
@[simp] theorem setRec_inReset (h : Handle) (r : UnitRec) : (setRec s h r).inReset = s.inReset := rfl
@[simp] theorem setRec_role (h : Handle) (r : UnitRec) : (setRec s h r).role = s.role := rfl
@[simp] theorem setRec_position (h : Handle) (r : UnitRec) : (setRec s h r).position = s.position := rfl
@[simp] theorem setRec_rangeBase (h : Handle) (r : UnitRec) : (setRec s h r).rangeBase = s.rangeBase := rfl
@[simp] theorem setRec_lanes (h : Handle) (r : UnitRec) : (setRec s h r).lanes = s.lanes := rfl
@[simp] theorem setRec_decks (h : Handle) (r : UnitRec) : (setRec s h r).decks = s.decks := rfl
@[simp] theorem setRec_sections (h : Handle) (r : UnitRec) : (setRec s h r).sections = s.sections := rfl
@[simp] theorem setRec_segregation (h : Handle) (r : UnitRec) : (setRec s h r).segregation = s.segregation := rfl
@[simp] theorem setRec_limits (h : Handle) (r : UnitRec) : (setRec s h r).limits = s.limits := rfl
@[simp] theorem setRec_policy (h : Handle) (r : UnitRec) : (setRec s h r).policy = s.policy := rfl
@[simp] theorem setRec_gaps (h : Handle) (r : UnitRec) : (setRec s h r).gaps = s.gaps := rfl
@[simp] theorem setRec_defaultUnit (h : Handle) (r : UnitRec) : (setRec s h r).defaultUnit = s.defaultUnit := rfl
@[simp] theorem setRec_departures (h : Handle) (r : UnitRec) : (setRec s h r).departures = s.departures := rfl
@[simp] theorem setRec_offers (h : Handle) (r : UnitRec) : (setRec s h r).offers = s.offers := rfl
@[simp] theorem setRec_reservations (h : Handle) (r : UnitRec) : (setRec s h r).reservations = s.reservations := rfl
@[simp] theorem setRec_trials (h : Handle) (r : UnitRec) : (setRec s h r).trials = s.trials := rfl
@[simp] theorem setRec_chainSeq (h : Handle) (r : UnitRec) : (setRec s h r).chainSeq = s.chainSeq := rfl
@[simp] theorem setRec_holds (h : Handle) (r : UnitRec) : (setRec s h r).holds = s.holds := rfl
@[simp] theorem setRec_voyage (h : Handle) (r : UnitRec) : (setRec s h r).voyage = s.voyage := rfl
@[simp] theorem setRec_pendingClear (h : Handle) (r : UnitRec) : (setRec s h r).pendingClear = s.pendingClear := rfl
@[simp] theorem setRec_stowClock (h : Handle) (r : UnitRec) : (setRec s h r).stowClock = s.stowClock := rfl
@[simp] theorem setRec_heelOffset (h : Handle) (r : UnitRec) : (setRec s h r).heelOffset = s.heelOffset := rfl
@[simp] theorem setRec_trimOffset (h : Handle) (r : UnitRec) : (setRec s h r).trimOffset = s.trimOffset := rfl
@[simp] theorem setRec_reportSerial (h : Handle) (r : UnitRec) : (setRec s h r).reportSerial = s.reportSerial := rfl
@[simp] theorem setRec_reportState (h : Handle) (r : UnitRec) : (setRec s h r).reportState = s.reportState := rfl
@[simp] theorem setRec_reportTimer (h : Handle) (r : UnitRec) : (setRec s h r).reportTimer = s.reportTimer := rfl
@[simp] theorem setRec_report (h : Handle) (r : UnitRec) : (setRec s h r).report = s.report := rfl
@[simp] theorem setRec_emitting (h : Handle) (r : UnitRec) : (setRec s h r).emitting = s.emitting := rfl
@[simp] theorem setRec_buffer (h : Handle) (r : UnitRec) : (setRec s h r).buffer = s.buffer := rfl
@[simp] theorem setRec_heldToken (h : Handle) (r : UnitRec) : (setRec s h r).heldToken = s.heldToken := rfl
@[simp] theorem setRec_log (h : Handle) (r : UnitRec) : (setRec s h r).log = s.log := rfl
@[simp] theorem setRec_nextExc (h : Handle) (r : UnitRec) : (setRec s h r).nextExc = s.nextExc := rfl
@[simp] theorem setRec_notices (h : Handle) (r : UnitRec) : (setRec s h r).notices = s.notices := rfl
@[simp] theorem setRec_enables (h : Handle) (r : UnitRec) : (setRec s h r).enables = s.enables := rfl
@[simp] theorem setRec_armed (h : Handle) (r : UnitRec) : (setRec s h r).armed = s.armed := rfl
@[simp] theorem setRec_rxFwd (h : Handle) (r : UnitRec) : (setRec s h r).rxFwd = s.rxFwd := rfl
@[simp] theorem setRec_rxRet (h : Handle) (r : UnitRec) : (setRec s h r).rxRet = s.rxRet := rfl
@[simp] theorem setRec_origFwd (h : Handle) (r : UnitRec) : (setRec s h r).origFwd = s.origFwd := rfl
@[simp] theorem setRec_origRet (h : Handle) (r : UnitRec) : (setRec s h r).origRet = s.origRet := rfl
@[simp] theorem setRec_passFwd (h : Handle) (r : UnitRec) : (setRec s h r).passFwd = s.passFwd := rfl
@[simp] theorem setRec_passRet (h : Handle) (r : UnitRec) : (setRec s h r).passRet = s.passRet := rfl
@[simp] theorem setRec_lastFwd (h : Handle) (r : UnitRec) : (setRec s h r).lastFwd = s.lastFwd := rfl
@[simp] theorem setRec_lastRet (h : Handle) (r : UnitRec) : (setRec s h r).lastRet = s.lastRet := rfl
@[simp] theorem setRec_drivenFwd (h : Handle) (r : UnitRec) : (setRec s h r).drivenFwd = s.drivenFwd := rfl
@[simp] theorem setRec_drivenRet (h : Handle) (r : UnitRec) : (setRec s h r).drivenRet = s.drivenRet := rfl
@[simp] theorem setRec_records (h : Handle) (r : UnitRec) : (setRec s h r).records = if r = freeRecord then Table.drop h s.records else Table.put h r s.records := rfl

/-! ## raiseNotice -/

@[simp] theorem raiseNotice_pending (n : Notice) : (raiseNotice s n).pending = s.pending := rfl
@[simp] theorem raiseNotice_inReset (n : Notice) : (raiseNotice s n).inReset = s.inReset := rfl
@[simp] theorem raiseNotice_role (n : Notice) : (raiseNotice s n).role = s.role := rfl
@[simp] theorem raiseNotice_position (n : Notice) : (raiseNotice s n).position = s.position := rfl
@[simp] theorem raiseNotice_rangeBase (n : Notice) : (raiseNotice s n).rangeBase = s.rangeBase := rfl
@[simp] theorem raiseNotice_lanes (n : Notice) : (raiseNotice s n).lanes = s.lanes := rfl
@[simp] theorem raiseNotice_decks (n : Notice) : (raiseNotice s n).decks = s.decks := rfl
@[simp] theorem raiseNotice_sections (n : Notice) : (raiseNotice s n).sections = s.sections := rfl
@[simp] theorem raiseNotice_segregation (n : Notice) : (raiseNotice s n).segregation = s.segregation := rfl
@[simp] theorem raiseNotice_limits (n : Notice) : (raiseNotice s n).limits = s.limits := rfl
@[simp] theorem raiseNotice_policy (n : Notice) : (raiseNotice s n).policy = s.policy := rfl
@[simp] theorem raiseNotice_gaps (n : Notice) : (raiseNotice s n).gaps = s.gaps := rfl
@[simp] theorem raiseNotice_defaultUnit (n : Notice) : (raiseNotice s n).defaultUnit = s.defaultUnit := rfl
@[simp] theorem raiseNotice_records (n : Notice) : (raiseNotice s n).records = s.records := rfl
@[simp] theorem raiseNotice_departures (n : Notice) : (raiseNotice s n).departures = s.departures := rfl
@[simp] theorem raiseNotice_offers (n : Notice) : (raiseNotice s n).offers = s.offers := rfl
@[simp] theorem raiseNotice_reservations (n : Notice) : (raiseNotice s n).reservations = s.reservations := rfl
@[simp] theorem raiseNotice_trials (n : Notice) : (raiseNotice s n).trials = s.trials := rfl
@[simp] theorem raiseNotice_chainSeq (n : Notice) : (raiseNotice s n).chainSeq = s.chainSeq := rfl
@[simp] theorem raiseNotice_holds (n : Notice) : (raiseNotice s n).holds = s.holds := rfl
@[simp] theorem raiseNotice_voyage (n : Notice) : (raiseNotice s n).voyage = s.voyage := rfl
@[simp] theorem raiseNotice_pendingClear (n : Notice) : (raiseNotice s n).pendingClear = s.pendingClear := rfl
@[simp] theorem raiseNotice_stowClock (n : Notice) : (raiseNotice s n).stowClock = s.stowClock := rfl
@[simp] theorem raiseNotice_heelOffset (n : Notice) : (raiseNotice s n).heelOffset = s.heelOffset := rfl
@[simp] theorem raiseNotice_trimOffset (n : Notice) : (raiseNotice s n).trimOffset = s.trimOffset := rfl
@[simp] theorem raiseNotice_reportSerial (n : Notice) : (raiseNotice s n).reportSerial = s.reportSerial := rfl
@[simp] theorem raiseNotice_reportState (n : Notice) : (raiseNotice s n).reportState = s.reportState := rfl
@[simp] theorem raiseNotice_reportTimer (n : Notice) : (raiseNotice s n).reportTimer = s.reportTimer := rfl
@[simp] theorem raiseNotice_report (n : Notice) : (raiseNotice s n).report = s.report := rfl
@[simp] theorem raiseNotice_emitting (n : Notice) : (raiseNotice s n).emitting = s.emitting := rfl
@[simp] theorem raiseNotice_buffer (n : Notice) : (raiseNotice s n).buffer = s.buffer := rfl
@[simp] theorem raiseNotice_heldToken (n : Notice) : (raiseNotice s n).heldToken = s.heldToken := rfl
@[simp] theorem raiseNotice_log (n : Notice) : (raiseNotice s n).log = s.log := rfl
@[simp] theorem raiseNotice_nextExc (n : Notice) : (raiseNotice s n).nextExc = s.nextExc := rfl
@[simp] theorem raiseNotice_enables (n : Notice) : (raiseNotice s n).enables = s.enables := rfl
@[simp] theorem raiseNotice_armed (n : Notice) : (raiseNotice s n).armed = s.armed := rfl
@[simp] theorem raiseNotice_rxFwd (n : Notice) : (raiseNotice s n).rxFwd = s.rxFwd := rfl
@[simp] theorem raiseNotice_rxRet (n : Notice) : (raiseNotice s n).rxRet = s.rxRet := rfl
@[simp] theorem raiseNotice_origFwd (n : Notice) : (raiseNotice s n).origFwd = s.origFwd := rfl
@[simp] theorem raiseNotice_origRet (n : Notice) : (raiseNotice s n).origRet = s.origRet := rfl
@[simp] theorem raiseNotice_passFwd (n : Notice) : (raiseNotice s n).passFwd = s.passFwd := rfl
@[simp] theorem raiseNotice_passRet (n : Notice) : (raiseNotice s n).passRet = s.passRet := rfl
@[simp] theorem raiseNotice_lastFwd (n : Notice) : (raiseNotice s n).lastFwd = s.lastFwd := rfl
@[simp] theorem raiseNotice_lastRet (n : Notice) : (raiseNotice s n).lastRet = s.lastRet := rfl
@[simp] theorem raiseNotice_drivenFwd (n : Notice) : (raiseNotice s n).drivenFwd = s.drivenFwd := rfl
@[simp] theorem raiseNotice_drivenRet (n : Notice) : (raiseNotice s n).drivenRet = s.drivenRet := rfl
@[simp] theorem raiseNotice_notices (n : Notice) : (raiseNotice s n).notices = noticeSet s.notices n := rfl

/-! ## emitFwd -/

@[simp] theorem emitFwd_pending (f : Frame) : (emitFwd s f).pending = s.pending := rfl
@[simp] theorem emitFwd_inReset (f : Frame) : (emitFwd s f).inReset = s.inReset := rfl
@[simp] theorem emitFwd_role (f : Frame) : (emitFwd s f).role = s.role := rfl
@[simp] theorem emitFwd_position (f : Frame) : (emitFwd s f).position = s.position := rfl
@[simp] theorem emitFwd_rangeBase (f : Frame) : (emitFwd s f).rangeBase = s.rangeBase := rfl
@[simp] theorem emitFwd_lanes (f : Frame) : (emitFwd s f).lanes = s.lanes := rfl
@[simp] theorem emitFwd_decks (f : Frame) : (emitFwd s f).decks = s.decks := rfl
@[simp] theorem emitFwd_sections (f : Frame) : (emitFwd s f).sections = s.sections := rfl
@[simp] theorem emitFwd_segregation (f : Frame) : (emitFwd s f).segregation = s.segregation := rfl
@[simp] theorem emitFwd_limits (f : Frame) : (emitFwd s f).limits = s.limits := rfl
@[simp] theorem emitFwd_policy (f : Frame) : (emitFwd s f).policy = s.policy := rfl
@[simp] theorem emitFwd_gaps (f : Frame) : (emitFwd s f).gaps = s.gaps := rfl
@[simp] theorem emitFwd_defaultUnit (f : Frame) : (emitFwd s f).defaultUnit = s.defaultUnit := rfl
@[simp] theorem emitFwd_records (f : Frame) : (emitFwd s f).records = s.records := rfl
@[simp] theorem emitFwd_departures (f : Frame) : (emitFwd s f).departures = s.departures := rfl
@[simp] theorem emitFwd_offers (f : Frame) : (emitFwd s f).offers = s.offers := rfl
@[simp] theorem emitFwd_reservations (f : Frame) : (emitFwd s f).reservations = s.reservations := rfl
@[simp] theorem emitFwd_trials (f : Frame) : (emitFwd s f).trials = s.trials := rfl
@[simp] theorem emitFwd_chainSeq (f : Frame) : (emitFwd s f).chainSeq = s.chainSeq := rfl
@[simp] theorem emitFwd_holds (f : Frame) : (emitFwd s f).holds = s.holds := rfl
@[simp] theorem emitFwd_voyage (f : Frame) : (emitFwd s f).voyage = s.voyage := rfl
@[simp] theorem emitFwd_pendingClear (f : Frame) : (emitFwd s f).pendingClear = s.pendingClear := rfl
@[simp] theorem emitFwd_stowClock (f : Frame) : (emitFwd s f).stowClock = s.stowClock := rfl
@[simp] theorem emitFwd_heelOffset (f : Frame) : (emitFwd s f).heelOffset = s.heelOffset := rfl
@[simp] theorem emitFwd_trimOffset (f : Frame) : (emitFwd s f).trimOffset = s.trimOffset := rfl
@[simp] theorem emitFwd_reportSerial (f : Frame) : (emitFwd s f).reportSerial = s.reportSerial := rfl
@[simp] theorem emitFwd_reportState (f : Frame) : (emitFwd s f).reportState = s.reportState := rfl
@[simp] theorem emitFwd_reportTimer (f : Frame) : (emitFwd s f).reportTimer = s.reportTimer := rfl
@[simp] theorem emitFwd_report (f : Frame) : (emitFwd s f).report = s.report := rfl
@[simp] theorem emitFwd_emitting (f : Frame) : (emitFwd s f).emitting = s.emitting := rfl
@[simp] theorem emitFwd_buffer (f : Frame) : (emitFwd s f).buffer = s.buffer := rfl
@[simp] theorem emitFwd_heldToken (f : Frame) : (emitFwd s f).heldToken = s.heldToken := rfl
@[simp] theorem emitFwd_log (f : Frame) : (emitFwd s f).log = s.log := rfl
@[simp] theorem emitFwd_nextExc (f : Frame) : (emitFwd s f).nextExc = s.nextExc := rfl
@[simp] theorem emitFwd_notices (f : Frame) : (emitFwd s f).notices = s.notices := rfl
@[simp] theorem emitFwd_enables (f : Frame) : (emitFwd s f).enables = s.enables := rfl
@[simp] theorem emitFwd_armed (f : Frame) : (emitFwd s f).armed = s.armed := rfl
@[simp] theorem emitFwd_rxFwd (f : Frame) : (emitFwd s f).rxFwd = s.rxFwd := rfl
@[simp] theorem emitFwd_rxRet (f : Frame) : (emitFwd s f).rxRet = s.rxRet := rfl
@[simp] theorem emitFwd_origRet (f : Frame) : (emitFwd s f).origRet = s.origRet := rfl
@[simp] theorem emitFwd_passFwd (f : Frame) : (emitFwd s f).passFwd = s.passFwd := rfl
@[simp] theorem emitFwd_passRet (f : Frame) : (emitFwd s f).passRet = s.passRet := rfl
@[simp] theorem emitFwd_lastFwd (f : Frame) : (emitFwd s f).lastFwd = s.lastFwd := rfl
@[simp] theorem emitFwd_lastRet (f : Frame) : (emitFwd s f).lastRet = s.lastRet := rfl
@[simp] theorem emitFwd_drivenFwd (f : Frame) : (emitFwd s f).drivenFwd = s.drivenFwd := rfl
@[simp] theorem emitFwd_drivenRet (f : Frame) : (emitFwd s f).drivenRet = s.drivenRet := rfl
@[simp] theorem emitFwd_origFwd (f : Frame) : (emitFwd s f).origFwd = s.origFwd ++ [f] := rfl

/-! ## emitRet -/

@[simp] theorem emitRet_pending (f : Frame) : (emitRet s f).pending = s.pending := rfl
@[simp] theorem emitRet_inReset (f : Frame) : (emitRet s f).inReset = s.inReset := rfl
@[simp] theorem emitRet_role (f : Frame) : (emitRet s f).role = s.role := rfl
@[simp] theorem emitRet_position (f : Frame) : (emitRet s f).position = s.position := rfl
@[simp] theorem emitRet_rangeBase (f : Frame) : (emitRet s f).rangeBase = s.rangeBase := rfl
@[simp] theorem emitRet_lanes (f : Frame) : (emitRet s f).lanes = s.lanes := rfl
@[simp] theorem emitRet_decks (f : Frame) : (emitRet s f).decks = s.decks := rfl
@[simp] theorem emitRet_sections (f : Frame) : (emitRet s f).sections = s.sections := rfl
@[simp] theorem emitRet_segregation (f : Frame) : (emitRet s f).segregation = s.segregation := rfl
@[simp] theorem emitRet_limits (f : Frame) : (emitRet s f).limits = s.limits := rfl
@[simp] theorem emitRet_policy (f : Frame) : (emitRet s f).policy = s.policy := rfl
@[simp] theorem emitRet_gaps (f : Frame) : (emitRet s f).gaps = s.gaps := rfl
@[simp] theorem emitRet_defaultUnit (f : Frame) : (emitRet s f).defaultUnit = s.defaultUnit := rfl
@[simp] theorem emitRet_records (f : Frame) : (emitRet s f).records = s.records := rfl
@[simp] theorem emitRet_departures (f : Frame) : (emitRet s f).departures = s.departures := rfl
@[simp] theorem emitRet_offers (f : Frame) : (emitRet s f).offers = s.offers := rfl
@[simp] theorem emitRet_reservations (f : Frame) : (emitRet s f).reservations = s.reservations := rfl
@[simp] theorem emitRet_trials (f : Frame) : (emitRet s f).trials = s.trials := rfl
@[simp] theorem emitRet_chainSeq (f : Frame) : (emitRet s f).chainSeq = s.chainSeq := rfl
@[simp] theorem emitRet_holds (f : Frame) : (emitRet s f).holds = s.holds := rfl
@[simp] theorem emitRet_voyage (f : Frame) : (emitRet s f).voyage = s.voyage := rfl
@[simp] theorem emitRet_pendingClear (f : Frame) : (emitRet s f).pendingClear = s.pendingClear := rfl
@[simp] theorem emitRet_stowClock (f : Frame) : (emitRet s f).stowClock = s.stowClock := rfl
@[simp] theorem emitRet_heelOffset (f : Frame) : (emitRet s f).heelOffset = s.heelOffset := rfl
@[simp] theorem emitRet_trimOffset (f : Frame) : (emitRet s f).trimOffset = s.trimOffset := rfl
@[simp] theorem emitRet_reportSerial (f : Frame) : (emitRet s f).reportSerial = s.reportSerial := rfl
@[simp] theorem emitRet_reportState (f : Frame) : (emitRet s f).reportState = s.reportState := rfl
@[simp] theorem emitRet_reportTimer (f : Frame) : (emitRet s f).reportTimer = s.reportTimer := rfl
@[simp] theorem emitRet_report (f : Frame) : (emitRet s f).report = s.report := rfl
@[simp] theorem emitRet_emitting (f : Frame) : (emitRet s f).emitting = s.emitting := rfl
@[simp] theorem emitRet_buffer (f : Frame) : (emitRet s f).buffer = s.buffer := rfl
@[simp] theorem emitRet_heldToken (f : Frame) : (emitRet s f).heldToken = s.heldToken := rfl
@[simp] theorem emitRet_log (f : Frame) : (emitRet s f).log = s.log := rfl
@[simp] theorem emitRet_nextExc (f : Frame) : (emitRet s f).nextExc = s.nextExc := rfl
@[simp] theorem emitRet_notices (f : Frame) : (emitRet s f).notices = s.notices := rfl
@[simp] theorem emitRet_enables (f : Frame) : (emitRet s f).enables = s.enables := rfl
@[simp] theorem emitRet_armed (f : Frame) : (emitRet s f).armed = s.armed := rfl
@[simp] theorem emitRet_rxFwd (f : Frame) : (emitRet s f).rxFwd = s.rxFwd := rfl
@[simp] theorem emitRet_rxRet (f : Frame) : (emitRet s f).rxRet = s.rxRet := rfl
@[simp] theorem emitRet_origFwd (f : Frame) : (emitRet s f).origFwd = s.origFwd := rfl
@[simp] theorem emitRet_passFwd (f : Frame) : (emitRet s f).passFwd = s.passFwd := rfl
@[simp] theorem emitRet_passRet (f : Frame) : (emitRet s f).passRet = s.passRet := rfl
@[simp] theorem emitRet_lastFwd (f : Frame) : (emitRet s f).lastFwd = s.lastFwd := rfl
@[simp] theorem emitRet_lastRet (f : Frame) : (emitRet s f).lastRet = s.lastRet := rfl
@[simp] theorem emitRet_drivenFwd (f : Frame) : (emitRet s f).drivenFwd = s.drivenFwd := rfl
@[simp] theorem emitRet_drivenRet (f : Frame) : (emitRet s f).drivenRet = s.drivenRet := rfl
@[simp] theorem emitRet_origRet (f : Frame) : (emitRet s f).origRet = s.origRet ++ [f] := rfl

/-! ## passDown -/

@[simp] theorem passDown_pending (f : Frame) : (passDown s f).pending = s.pending := rfl
@[simp] theorem passDown_inReset (f : Frame) : (passDown s f).inReset = s.inReset := rfl
@[simp] theorem passDown_role (f : Frame) : (passDown s f).role = s.role := rfl
@[simp] theorem passDown_position (f : Frame) : (passDown s f).position = s.position := rfl
@[simp] theorem passDown_rangeBase (f : Frame) : (passDown s f).rangeBase = s.rangeBase := rfl
@[simp] theorem passDown_lanes (f : Frame) : (passDown s f).lanes = s.lanes := rfl
@[simp] theorem passDown_decks (f : Frame) : (passDown s f).decks = s.decks := rfl
@[simp] theorem passDown_sections (f : Frame) : (passDown s f).sections = s.sections := rfl
@[simp] theorem passDown_segregation (f : Frame) : (passDown s f).segregation = s.segregation := rfl
@[simp] theorem passDown_limits (f : Frame) : (passDown s f).limits = s.limits := rfl
@[simp] theorem passDown_policy (f : Frame) : (passDown s f).policy = s.policy := rfl
@[simp] theorem passDown_gaps (f : Frame) : (passDown s f).gaps = s.gaps := rfl
@[simp] theorem passDown_defaultUnit (f : Frame) : (passDown s f).defaultUnit = s.defaultUnit := rfl
@[simp] theorem passDown_records (f : Frame) : (passDown s f).records = s.records := rfl
@[simp] theorem passDown_departures (f : Frame) : (passDown s f).departures = s.departures := rfl
@[simp] theorem passDown_offers (f : Frame) : (passDown s f).offers = s.offers := rfl
@[simp] theorem passDown_reservations (f : Frame) : (passDown s f).reservations = s.reservations := rfl
@[simp] theorem passDown_trials (f : Frame) : (passDown s f).trials = s.trials := rfl
@[simp] theorem passDown_chainSeq (f : Frame) : (passDown s f).chainSeq = s.chainSeq := rfl
@[simp] theorem passDown_holds (f : Frame) : (passDown s f).holds = s.holds := rfl
@[simp] theorem passDown_voyage (f : Frame) : (passDown s f).voyage = s.voyage := rfl
@[simp] theorem passDown_pendingClear (f : Frame) : (passDown s f).pendingClear = s.pendingClear := rfl
@[simp] theorem passDown_stowClock (f : Frame) : (passDown s f).stowClock = s.stowClock := rfl
@[simp] theorem passDown_heelOffset (f : Frame) : (passDown s f).heelOffset = s.heelOffset := rfl
@[simp] theorem passDown_trimOffset (f : Frame) : (passDown s f).trimOffset = s.trimOffset := rfl
@[simp] theorem passDown_reportSerial (f : Frame) : (passDown s f).reportSerial = s.reportSerial := rfl
@[simp] theorem passDown_reportState (f : Frame) : (passDown s f).reportState = s.reportState := rfl
@[simp] theorem passDown_reportTimer (f : Frame) : (passDown s f).reportTimer = s.reportTimer := rfl
@[simp] theorem passDown_report (f : Frame) : (passDown s f).report = s.report := rfl
@[simp] theorem passDown_emitting (f : Frame) : (passDown s f).emitting = s.emitting := rfl
@[simp] theorem passDown_buffer (f : Frame) : (passDown s f).buffer = s.buffer := rfl
@[simp] theorem passDown_heldToken (f : Frame) : (passDown s f).heldToken = s.heldToken := rfl
@[simp] theorem passDown_log (f : Frame) : (passDown s f).log = s.log := rfl
@[simp] theorem passDown_nextExc (f : Frame) : (passDown s f).nextExc = s.nextExc := rfl
@[simp] theorem passDown_notices (f : Frame) : (passDown s f).notices = s.notices := rfl
@[simp] theorem passDown_enables (f : Frame) : (passDown s f).enables = s.enables := rfl
@[simp] theorem passDown_armed (f : Frame) : (passDown s f).armed = s.armed := rfl
@[simp] theorem passDown_rxFwd (f : Frame) : (passDown s f).rxFwd = s.rxFwd := rfl
@[simp] theorem passDown_rxRet (f : Frame) : (passDown s f).rxRet = s.rxRet := rfl
@[simp] theorem passDown_origFwd (f : Frame) : (passDown s f).origFwd = s.origFwd := rfl
@[simp] theorem passDown_origRet (f : Frame) : (passDown s f).origRet = s.origRet := rfl
@[simp] theorem passDown_passRet (f : Frame) : (passDown s f).passRet = s.passRet := rfl
@[simp] theorem passDown_lastFwd (f : Frame) : (passDown s f).lastFwd = s.lastFwd := rfl
@[simp] theorem passDown_lastRet (f : Frame) : (passDown s f).lastRet = s.lastRet := rfl
@[simp] theorem passDown_drivenFwd (f : Frame) : (passDown s f).drivenFwd = s.drivenFwd := rfl
@[simp] theorem passDown_drivenRet (f : Frame) : (passDown s f).drivenRet = s.drivenRet := rfl
@[simp] theorem passDown_passFwd (f : Frame) : (passDown s f).passFwd = s.passFwd ++ [f] := rfl

/-! ## passUp -/

@[simp] theorem passUp_pending (f : Frame) : (passUp s f).pending = s.pending := rfl
@[simp] theorem passUp_inReset (f : Frame) : (passUp s f).inReset = s.inReset := rfl
@[simp] theorem passUp_role (f : Frame) : (passUp s f).role = s.role := rfl
@[simp] theorem passUp_position (f : Frame) : (passUp s f).position = s.position := rfl
@[simp] theorem passUp_rangeBase (f : Frame) : (passUp s f).rangeBase = s.rangeBase := rfl
@[simp] theorem passUp_lanes (f : Frame) : (passUp s f).lanes = s.lanes := rfl
@[simp] theorem passUp_decks (f : Frame) : (passUp s f).decks = s.decks := rfl
@[simp] theorem passUp_sections (f : Frame) : (passUp s f).sections = s.sections := rfl
@[simp] theorem passUp_segregation (f : Frame) : (passUp s f).segregation = s.segregation := rfl
@[simp] theorem passUp_limits (f : Frame) : (passUp s f).limits = s.limits := rfl
@[simp] theorem passUp_policy (f : Frame) : (passUp s f).policy = s.policy := rfl
@[simp] theorem passUp_gaps (f : Frame) : (passUp s f).gaps = s.gaps := rfl
@[simp] theorem passUp_defaultUnit (f : Frame) : (passUp s f).defaultUnit = s.defaultUnit := rfl
@[simp] theorem passUp_records (f : Frame) : (passUp s f).records = s.records := rfl
@[simp] theorem passUp_departures (f : Frame) : (passUp s f).departures = s.departures := rfl
@[simp] theorem passUp_offers (f : Frame) : (passUp s f).offers = s.offers := rfl
@[simp] theorem passUp_reservations (f : Frame) : (passUp s f).reservations = s.reservations := rfl
@[simp] theorem passUp_trials (f : Frame) : (passUp s f).trials = s.trials := rfl
@[simp] theorem passUp_chainSeq (f : Frame) : (passUp s f).chainSeq = s.chainSeq := rfl
@[simp] theorem passUp_holds (f : Frame) : (passUp s f).holds = s.holds := rfl
@[simp] theorem passUp_voyage (f : Frame) : (passUp s f).voyage = s.voyage := rfl
@[simp] theorem passUp_pendingClear (f : Frame) : (passUp s f).pendingClear = s.pendingClear := rfl
@[simp] theorem passUp_stowClock (f : Frame) : (passUp s f).stowClock = s.stowClock := rfl
@[simp] theorem passUp_heelOffset (f : Frame) : (passUp s f).heelOffset = s.heelOffset := rfl
@[simp] theorem passUp_trimOffset (f : Frame) : (passUp s f).trimOffset = s.trimOffset := rfl
@[simp] theorem passUp_reportSerial (f : Frame) : (passUp s f).reportSerial = s.reportSerial := rfl
@[simp] theorem passUp_reportState (f : Frame) : (passUp s f).reportState = s.reportState := rfl
@[simp] theorem passUp_reportTimer (f : Frame) : (passUp s f).reportTimer = s.reportTimer := rfl
@[simp] theorem passUp_report (f : Frame) : (passUp s f).report = s.report := rfl
@[simp] theorem passUp_emitting (f : Frame) : (passUp s f).emitting = s.emitting := rfl
@[simp] theorem passUp_buffer (f : Frame) : (passUp s f).buffer = s.buffer := rfl
@[simp] theorem passUp_heldToken (f : Frame) : (passUp s f).heldToken = s.heldToken := rfl
@[simp] theorem passUp_log (f : Frame) : (passUp s f).log = s.log := rfl
@[simp] theorem passUp_nextExc (f : Frame) : (passUp s f).nextExc = s.nextExc := rfl
@[simp] theorem passUp_notices (f : Frame) : (passUp s f).notices = s.notices := rfl
@[simp] theorem passUp_enables (f : Frame) : (passUp s f).enables = s.enables := rfl
@[simp] theorem passUp_armed (f : Frame) : (passUp s f).armed = s.armed := rfl
@[simp] theorem passUp_rxFwd (f : Frame) : (passUp s f).rxFwd = s.rxFwd := rfl
@[simp] theorem passUp_rxRet (f : Frame) : (passUp s f).rxRet = s.rxRet := rfl
@[simp] theorem passUp_origFwd (f : Frame) : (passUp s f).origFwd = s.origFwd := rfl
@[simp] theorem passUp_origRet (f : Frame) : (passUp s f).origRet = s.origRet := rfl
@[simp] theorem passUp_passFwd (f : Frame) : (passUp s f).passFwd = s.passFwd := rfl
@[simp] theorem passUp_lastFwd (f : Frame) : (passUp s f).lastFwd = s.lastFwd := rfl
@[simp] theorem passUp_lastRet (f : Frame) : (passUp s f).lastRet = s.lastRet := rfl
@[simp] theorem passUp_drivenFwd (f : Frame) : (passUp s f).drivenFwd = s.drivenFwd := rfl
@[simp] theorem passUp_drivenRet (f : Frame) : (passUp s f).drivenRet = s.drivenRet := rfl
@[simp] theorem passUp_passRet (f : Frame) : (passUp s f).passRet = s.passRet ++ [f] := rfl

/-! ## emitAttention -/

@[simp] theorem emitAttention_pending : (emitAttention s).pending = s.pending := rfl
@[simp] theorem emitAttention_inReset : (emitAttention s).inReset = s.inReset := rfl
@[simp] theorem emitAttention_role : (emitAttention s).role = s.role := rfl
@[simp] theorem emitAttention_position : (emitAttention s).position = s.position := rfl
@[simp] theorem emitAttention_rangeBase : (emitAttention s).rangeBase = s.rangeBase := rfl
@[simp] theorem emitAttention_lanes : (emitAttention s).lanes = s.lanes := rfl
@[simp] theorem emitAttention_decks : (emitAttention s).decks = s.decks := rfl
@[simp] theorem emitAttention_sections : (emitAttention s).sections = s.sections := rfl
@[simp] theorem emitAttention_segregation : (emitAttention s).segregation = s.segregation := rfl
@[simp] theorem emitAttention_limits : (emitAttention s).limits = s.limits := rfl
@[simp] theorem emitAttention_policy : (emitAttention s).policy = s.policy := rfl
@[simp] theorem emitAttention_gaps : (emitAttention s).gaps = s.gaps := rfl
@[simp] theorem emitAttention_defaultUnit : (emitAttention s).defaultUnit = s.defaultUnit := rfl
@[simp] theorem emitAttention_records : (emitAttention s).records = s.records := rfl
@[simp] theorem emitAttention_departures : (emitAttention s).departures = s.departures := rfl
@[simp] theorem emitAttention_offers : (emitAttention s).offers = s.offers := rfl
@[simp] theorem emitAttention_reservations : (emitAttention s).reservations = s.reservations := rfl
@[simp] theorem emitAttention_trials : (emitAttention s).trials = s.trials := rfl
@[simp] theorem emitAttention_chainSeq : (emitAttention s).chainSeq = s.chainSeq := rfl
@[simp] theorem emitAttention_holds : (emitAttention s).holds = s.holds := rfl
@[simp] theorem emitAttention_voyage : (emitAttention s).voyage = s.voyage := rfl
@[simp] theorem emitAttention_pendingClear : (emitAttention s).pendingClear = s.pendingClear := rfl
@[simp] theorem emitAttention_stowClock : (emitAttention s).stowClock = s.stowClock := rfl
@[simp] theorem emitAttention_heelOffset : (emitAttention s).heelOffset = s.heelOffset := rfl
@[simp] theorem emitAttention_trimOffset : (emitAttention s).trimOffset = s.trimOffset := rfl
@[simp] theorem emitAttention_reportSerial : (emitAttention s).reportSerial = s.reportSerial := rfl
@[simp] theorem emitAttention_reportState : (emitAttention s).reportState = s.reportState := rfl
@[simp] theorem emitAttention_reportTimer : (emitAttention s).reportTimer = s.reportTimer := rfl
@[simp] theorem emitAttention_report : (emitAttention s).report = s.report := rfl
@[simp] theorem emitAttention_emitting : (emitAttention s).emitting = s.emitting := rfl
@[simp] theorem emitAttention_buffer : (emitAttention s).buffer = s.buffer := rfl
@[simp] theorem emitAttention_heldToken : (emitAttention s).heldToken = s.heldToken := rfl
@[simp] theorem emitAttention_log : (emitAttention s).log = s.log := rfl
@[simp] theorem emitAttention_nextExc : (emitAttention s).nextExc = s.nextExc := rfl
@[simp] theorem emitAttention_notices : (emitAttention s).notices = s.notices := rfl
@[simp] theorem emitAttention_enables : (emitAttention s).enables = s.enables := rfl
@[simp] theorem emitAttention_rxFwd : (emitAttention s).rxFwd = s.rxFwd := rfl
@[simp] theorem emitAttention_rxRet : (emitAttention s).rxRet = s.rxRet := rfl
@[simp] theorem emitAttention_origFwd : (emitAttention s).origFwd = s.origFwd := rfl
@[simp] theorem emitAttention_passFwd : (emitAttention s).passFwd = s.passFwd := rfl
@[simp] theorem emitAttention_passRet : (emitAttention s).passRet = s.passRet := rfl
@[simp] theorem emitAttention_lastFwd : (emitAttention s).lastFwd = s.lastFwd := rfl
@[simp] theorem emitAttention_lastRet : (emitAttention s).lastRet = s.lastRet := rfl
@[simp] theorem emitAttention_drivenFwd : (emitAttention s).drivenFwd = s.drivenFwd := rfl
@[simp] theorem emitAttention_drivenRet : (emitAttention s).drivenRet = s.drivenRet := rfl
@[simp] theorem emitAttention_origRet : (emitAttention s).origRet = s.origRet ++ [.attention s.position s.notices s.log.length s.nextExc] := rfl
@[simp] theorem emitAttention_armed : (emitAttention s).armed = false := rfl

/-! ## endReport -/

@[simp] theorem endReport_pending : (endReport s).pending = s.pending := rfl
@[simp] theorem endReport_inReset : (endReport s).inReset = s.inReset := rfl
@[simp] theorem endReport_role : (endReport s).role = s.role := rfl
@[simp] theorem endReport_position : (endReport s).position = s.position := rfl
@[simp] theorem endReport_rangeBase : (endReport s).rangeBase = s.rangeBase := rfl
@[simp] theorem endReport_lanes : (endReport s).lanes = s.lanes := rfl
@[simp] theorem endReport_decks : (endReport s).decks = s.decks := rfl
@[simp] theorem endReport_sections : (endReport s).sections = s.sections := rfl
@[simp] theorem endReport_segregation : (endReport s).segregation = s.segregation := rfl
@[simp] theorem endReport_limits : (endReport s).limits = s.limits := rfl
@[simp] theorem endReport_policy : (endReport s).policy = s.policy := rfl
@[simp] theorem endReport_gaps : (endReport s).gaps = s.gaps := rfl
@[simp] theorem endReport_defaultUnit : (endReport s).defaultUnit = s.defaultUnit := rfl
@[simp] theorem endReport_records : (endReport s).records = s.records := rfl
@[simp] theorem endReport_departures : (endReport s).departures = s.departures := rfl
@[simp] theorem endReport_offers : (endReport s).offers = s.offers := rfl
@[simp] theorem endReport_reservations : (endReport s).reservations = s.reservations := rfl
@[simp] theorem endReport_trials : (endReport s).trials = s.trials := rfl
@[simp] theorem endReport_chainSeq : (endReport s).chainSeq = s.chainSeq := rfl
@[simp] theorem endReport_holds : (endReport s).holds = s.holds := rfl
@[simp] theorem endReport_voyage : (endReport s).voyage = s.voyage := rfl
@[simp] theorem endReport_pendingClear : (endReport s).pendingClear = s.pendingClear := rfl
@[simp] theorem endReport_stowClock : (endReport s).stowClock = s.stowClock := rfl
@[simp] theorem endReport_heelOffset : (endReport s).heelOffset = s.heelOffset := rfl
@[simp] theorem endReport_trimOffset : (endReport s).trimOffset = s.trimOffset := rfl
@[simp] theorem endReport_reportSerial : (endReport s).reportSerial = s.reportSerial := rfl
@[simp] theorem endReport_emitting : (endReport s).emitting = s.emitting := rfl
@[simp] theorem endReport_buffer : (endReport s).buffer = s.buffer := rfl
@[simp] theorem endReport_heldToken : (endReport s).heldToken = s.heldToken := rfl
@[simp] theorem endReport_log : (endReport s).log = s.log := rfl
@[simp] theorem endReport_nextExc : (endReport s).nextExc = s.nextExc := rfl
@[simp] theorem endReport_notices : (endReport s).notices = s.notices := rfl
@[simp] theorem endReport_enables : (endReport s).enables = s.enables := rfl
@[simp] theorem endReport_armed : (endReport s).armed = s.armed := rfl
@[simp] theorem endReport_rxFwd : (endReport s).rxFwd = s.rxFwd := rfl
@[simp] theorem endReport_rxRet : (endReport s).rxRet = s.rxRet := rfl
@[simp] theorem endReport_origFwd : (endReport s).origFwd = s.origFwd := rfl
@[simp] theorem endReport_origRet : (endReport s).origRet = s.origRet := rfl
@[simp] theorem endReport_passFwd : (endReport s).passFwd = s.passFwd := rfl
@[simp] theorem endReport_passRet : (endReport s).passRet = s.passRet := rfl
@[simp] theorem endReport_lastFwd : (endReport s).lastFwd = s.lastFwd := rfl
@[simp] theorem endReport_lastRet : (endReport s).lastRet = s.lastRet := rfl
@[simp] theorem endReport_drivenFwd : (endReport s).drivenFwd = s.drivenFwd := rfl
@[simp] theorem endReport_drivenRet : (endReport s).drivenRet = s.drivenRet := rfl
@[simp] theorem endReport_reportState : (endReport s).reportState = .idle := rfl
@[simp] theorem endReport_reportTimer : (endReport s).reportTimer = none := rfl
@[simp] theorem endReport_report : (endReport s).report = none := rfl

/-! ## setSection -/

@[simp] theorem setSection_pending (id : Nat) (e : SectionEntry) : (setSection s id e).pending = s.pending := rfl
@[simp] theorem setSection_inReset (id : Nat) (e : SectionEntry) : (setSection s id e).inReset = s.inReset := rfl
@[simp] theorem setSection_role (id : Nat) (e : SectionEntry) : (setSection s id e).role = s.role := rfl
@[simp] theorem setSection_position (id : Nat) (e : SectionEntry) : (setSection s id e).position = s.position := rfl
@[simp] theorem setSection_rangeBase (id : Nat) (e : SectionEntry) : (setSection s id e).rangeBase = s.rangeBase := rfl
@[simp] theorem setSection_lanes (id : Nat) (e : SectionEntry) : (setSection s id e).lanes = s.lanes := rfl
@[simp] theorem setSection_decks (id : Nat) (e : SectionEntry) : (setSection s id e).decks = s.decks := rfl
@[simp] theorem setSection_segregation (id : Nat) (e : SectionEntry) : (setSection s id e).segregation = s.segregation := rfl
@[simp] theorem setSection_limits (id : Nat) (e : SectionEntry) : (setSection s id e).limits = s.limits := rfl
@[simp] theorem setSection_policy (id : Nat) (e : SectionEntry) : (setSection s id e).policy = s.policy := rfl
@[simp] theorem setSection_gaps (id : Nat) (e : SectionEntry) : (setSection s id e).gaps = s.gaps := rfl
@[simp] theorem setSection_defaultUnit (id : Nat) (e : SectionEntry) : (setSection s id e).defaultUnit = s.defaultUnit := rfl
@[simp] theorem setSection_records (id : Nat) (e : SectionEntry) : (setSection s id e).records = s.records := rfl
@[simp] theorem setSection_departures (id : Nat) (e : SectionEntry) : (setSection s id e).departures = s.departures := rfl
@[simp] theorem setSection_offers (id : Nat) (e : SectionEntry) : (setSection s id e).offers = s.offers := rfl
@[simp] theorem setSection_reservations (id : Nat) (e : SectionEntry) : (setSection s id e).reservations = s.reservations := rfl
@[simp] theorem setSection_trials (id : Nat) (e : SectionEntry) : (setSection s id e).trials = s.trials := rfl
@[simp] theorem setSection_chainSeq (id : Nat) (e : SectionEntry) : (setSection s id e).chainSeq = s.chainSeq := rfl
@[simp] theorem setSection_holds (id : Nat) (e : SectionEntry) : (setSection s id e).holds = s.holds := rfl
@[simp] theorem setSection_voyage (id : Nat) (e : SectionEntry) : (setSection s id e).voyage = s.voyage := rfl
@[simp] theorem setSection_pendingClear (id : Nat) (e : SectionEntry) : (setSection s id e).pendingClear = s.pendingClear := rfl
@[simp] theorem setSection_stowClock (id : Nat) (e : SectionEntry) : (setSection s id e).stowClock = s.stowClock := rfl
@[simp] theorem setSection_heelOffset (id : Nat) (e : SectionEntry) : (setSection s id e).heelOffset = s.heelOffset := rfl
@[simp] theorem setSection_trimOffset (id : Nat) (e : SectionEntry) : (setSection s id e).trimOffset = s.trimOffset := rfl
@[simp] theorem setSection_reportSerial (id : Nat) (e : SectionEntry) : (setSection s id e).reportSerial = s.reportSerial := rfl
@[simp] theorem setSection_reportState (id : Nat) (e : SectionEntry) : (setSection s id e).reportState = s.reportState := rfl
@[simp] theorem setSection_reportTimer (id : Nat) (e : SectionEntry) : (setSection s id e).reportTimer = s.reportTimer := rfl
@[simp] theorem setSection_report (id : Nat) (e : SectionEntry) : (setSection s id e).report = s.report := rfl
@[simp] theorem setSection_emitting (id : Nat) (e : SectionEntry) : (setSection s id e).emitting = s.emitting := rfl
@[simp] theorem setSection_buffer (id : Nat) (e : SectionEntry) : (setSection s id e).buffer = s.buffer := rfl
@[simp] theorem setSection_heldToken (id : Nat) (e : SectionEntry) : (setSection s id e).heldToken = s.heldToken := rfl
@[simp] theorem setSection_log (id : Nat) (e : SectionEntry) : (setSection s id e).log = s.log := rfl
@[simp] theorem setSection_nextExc (id : Nat) (e : SectionEntry) : (setSection s id e).nextExc = s.nextExc := rfl
@[simp] theorem setSection_notices (id : Nat) (e : SectionEntry) : (setSection s id e).notices = s.notices := rfl
@[simp] theorem setSection_enables (id : Nat) (e : SectionEntry) : (setSection s id e).enables = s.enables := rfl
@[simp] theorem setSection_armed (id : Nat) (e : SectionEntry) : (setSection s id e).armed = s.armed := rfl
@[simp] theorem setSection_rxFwd (id : Nat) (e : SectionEntry) : (setSection s id e).rxFwd = s.rxFwd := rfl
@[simp] theorem setSection_rxRet (id : Nat) (e : SectionEntry) : (setSection s id e).rxRet = s.rxRet := rfl
@[simp] theorem setSection_origFwd (id : Nat) (e : SectionEntry) : (setSection s id e).origFwd = s.origFwd := rfl
@[simp] theorem setSection_origRet (id : Nat) (e : SectionEntry) : (setSection s id e).origRet = s.origRet := rfl
@[simp] theorem setSection_passFwd (id : Nat) (e : SectionEntry) : (setSection s id e).passFwd = s.passFwd := rfl
@[simp] theorem setSection_passRet (id : Nat) (e : SectionEntry) : (setSection s id e).passRet = s.passRet := rfl
@[simp] theorem setSection_lastFwd (id : Nat) (e : SectionEntry) : (setSection s id e).lastFwd = s.lastFwd := rfl
@[simp] theorem setSection_lastRet (id : Nat) (e : SectionEntry) : (setSection s id e).lastRet = s.lastRet := rfl
@[simp] theorem setSection_drivenFwd (id : Nat) (e : SectionEntry) : (setSection s id e).drivenFwd = s.drivenFwd := rfl
@[simp] theorem setSection_drivenRet (id : Nat) (e : SectionEntry) : (setSection s id e).drivenRet = s.drivenRet := rfl
@[simp] theorem setSection_sections (id : Nat) (e : SectionEntry) : (setSection s id e).sections = Table.put id e s.sections := rfl

/-! ## setRxQueue -/

@[simp] theorem setRxQueue_pending (q : List Frame) (p : InPort) : (setRxQueue s q p).pending = s.pending := by cases p <;> rfl
@[simp] theorem setRxQueue_inReset (q : List Frame) (p : InPort) : (setRxQueue s q p).inReset = s.inReset := by cases p <;> rfl
@[simp] theorem setRxQueue_role (q : List Frame) (p : InPort) : (setRxQueue s q p).role = s.role := by cases p <;> rfl
@[simp] theorem setRxQueue_position (q : List Frame) (p : InPort) : (setRxQueue s q p).position = s.position := by cases p <;> rfl
@[simp] theorem setRxQueue_rangeBase (q : List Frame) (p : InPort) : (setRxQueue s q p).rangeBase = s.rangeBase := by cases p <;> rfl
@[simp] theorem setRxQueue_lanes (q : List Frame) (p : InPort) : (setRxQueue s q p).lanes = s.lanes := by cases p <;> rfl
@[simp] theorem setRxQueue_decks (q : List Frame) (p : InPort) : (setRxQueue s q p).decks = s.decks := by cases p <;> rfl
@[simp] theorem setRxQueue_sections (q : List Frame) (p : InPort) : (setRxQueue s q p).sections = s.sections := by cases p <;> rfl
@[simp] theorem setRxQueue_segregation (q : List Frame) (p : InPort) : (setRxQueue s q p).segregation = s.segregation := by cases p <;> rfl
@[simp] theorem setRxQueue_limits (q : List Frame) (p : InPort) : (setRxQueue s q p).limits = s.limits := by cases p <;> rfl
@[simp] theorem setRxQueue_policy (q : List Frame) (p : InPort) : (setRxQueue s q p).policy = s.policy := by cases p <;> rfl
@[simp] theorem setRxQueue_gaps (q : List Frame) (p : InPort) : (setRxQueue s q p).gaps = s.gaps := by cases p <;> rfl
@[simp] theorem setRxQueue_defaultUnit (q : List Frame) (p : InPort) : (setRxQueue s q p).defaultUnit = s.defaultUnit := by cases p <;> rfl
@[simp] theorem setRxQueue_records (q : List Frame) (p : InPort) : (setRxQueue s q p).records = s.records := by cases p <;> rfl
@[simp] theorem setRxQueue_departures (q : List Frame) (p : InPort) : (setRxQueue s q p).departures = s.departures := by cases p <;> rfl
@[simp] theorem setRxQueue_offers (q : List Frame) (p : InPort) : (setRxQueue s q p).offers = s.offers := by cases p <;> rfl
@[simp] theorem setRxQueue_reservations (q : List Frame) (p : InPort) : (setRxQueue s q p).reservations = s.reservations := by cases p <;> rfl
@[simp] theorem setRxQueue_trials (q : List Frame) (p : InPort) : (setRxQueue s q p).trials = s.trials := by cases p <;> rfl
@[simp] theorem setRxQueue_chainSeq (q : List Frame) (p : InPort) : (setRxQueue s q p).chainSeq = s.chainSeq := by cases p <;> rfl
@[simp] theorem setRxQueue_holds (q : List Frame) (p : InPort) : (setRxQueue s q p).holds = s.holds := by cases p <;> rfl
@[simp] theorem setRxQueue_voyage (q : List Frame) (p : InPort) : (setRxQueue s q p).voyage = s.voyage := by cases p <;> rfl
@[simp] theorem setRxQueue_pendingClear (q : List Frame) (p : InPort) : (setRxQueue s q p).pendingClear = s.pendingClear := by cases p <;> rfl
@[simp] theorem setRxQueue_stowClock (q : List Frame) (p : InPort) : (setRxQueue s q p).stowClock = s.stowClock := by cases p <;> rfl
@[simp] theorem setRxQueue_heelOffset (q : List Frame) (p : InPort) : (setRxQueue s q p).heelOffset = s.heelOffset := by cases p <;> rfl
@[simp] theorem setRxQueue_trimOffset (q : List Frame) (p : InPort) : (setRxQueue s q p).trimOffset = s.trimOffset := by cases p <;> rfl
@[simp] theorem setRxQueue_reportSerial (q : List Frame) (p : InPort) : (setRxQueue s q p).reportSerial = s.reportSerial := by cases p <;> rfl
@[simp] theorem setRxQueue_reportState (q : List Frame) (p : InPort) : (setRxQueue s q p).reportState = s.reportState := by cases p <;> rfl
@[simp] theorem setRxQueue_reportTimer (q : List Frame) (p : InPort) : (setRxQueue s q p).reportTimer = s.reportTimer := by cases p <;> rfl
@[simp] theorem setRxQueue_report (q : List Frame) (p : InPort) : (setRxQueue s q p).report = s.report := by cases p <;> rfl
@[simp] theorem setRxQueue_emitting (q : List Frame) (p : InPort) : (setRxQueue s q p).emitting = s.emitting := by cases p <;> rfl
@[simp] theorem setRxQueue_buffer (q : List Frame) (p : InPort) : (setRxQueue s q p).buffer = s.buffer := by cases p <;> rfl
@[simp] theorem setRxQueue_heldToken (q : List Frame) (p : InPort) : (setRxQueue s q p).heldToken = s.heldToken := by cases p <;> rfl
@[simp] theorem setRxQueue_log (q : List Frame) (p : InPort) : (setRxQueue s q p).log = s.log := by cases p <;> rfl
@[simp] theorem setRxQueue_nextExc (q : List Frame) (p : InPort) : (setRxQueue s q p).nextExc = s.nextExc := by cases p <;> rfl
@[simp] theorem setRxQueue_notices (q : List Frame) (p : InPort) : (setRxQueue s q p).notices = s.notices := by cases p <;> rfl
@[simp] theorem setRxQueue_enables (q : List Frame) (p : InPort) : (setRxQueue s q p).enables = s.enables := by cases p <;> rfl
@[simp] theorem setRxQueue_armed (q : List Frame) (p : InPort) : (setRxQueue s q p).armed = s.armed := by cases p <;> rfl
@[simp] theorem setRxQueue_origFwd (q : List Frame) (p : InPort) : (setRxQueue s q p).origFwd = s.origFwd := by cases p <;> rfl
@[simp] theorem setRxQueue_origRet (q : List Frame) (p : InPort) : (setRxQueue s q p).origRet = s.origRet := by cases p <;> rfl
@[simp] theorem setRxQueue_passFwd (q : List Frame) (p : InPort) : (setRxQueue s q p).passFwd = s.passFwd := by cases p <;> rfl
@[simp] theorem setRxQueue_passRet (q : List Frame) (p : InPort) : (setRxQueue s q p).passRet = s.passRet := by cases p <;> rfl
@[simp] theorem setRxQueue_lastFwd (q : List Frame) (p : InPort) : (setRxQueue s q p).lastFwd = s.lastFwd := by cases p <;> rfl
@[simp] theorem setRxQueue_lastRet (q : List Frame) (p : InPort) : (setRxQueue s q p).lastRet = s.lastRet := by cases p <;> rfl
@[simp] theorem setRxQueue_drivenFwd (q : List Frame) (p : InPort) : (setRxQueue s q p).drivenFwd = s.drivenFwd := by cases p <;> rfl
@[simp] theorem setRxQueue_drivenRet (q : List Frame) (p : InPort) : (setRxQueue s q p).drivenRet = s.drivenRet := by cases p <;> rfl

/-! ## modifySlot -/

@[simp] theorem modifySlot_pending (l : Lane) (f : LaneSlot → LaneSlot) : (modifySlot s l f).pending = s.pending := by unfold modifySlot; split <;> rfl
@[simp] theorem modifySlot_inReset (l : Lane) (f : LaneSlot → LaneSlot) : (modifySlot s l f).inReset = s.inReset := by unfold modifySlot; split <;> rfl
@[simp] theorem modifySlot_role (l : Lane) (f : LaneSlot → LaneSlot) : (modifySlot s l f).role = s.role := by unfold modifySlot; split <;> rfl
@[simp] theorem modifySlot_position (l : Lane) (f : LaneSlot → LaneSlot) : (modifySlot s l f).position = s.position := by unfold modifySlot; split <;> rfl
@[simp] theorem modifySlot_rangeBase (l : Lane) (f : LaneSlot → LaneSlot) : (modifySlot s l f).rangeBase = s.rangeBase := by unfold modifySlot; split <;> rfl
@[simp] theorem modifySlot_decks (l : Lane) (f : LaneSlot → LaneSlot) : (modifySlot s l f).decks = s.decks := by unfold modifySlot; split <;> rfl
@[simp] theorem modifySlot_sections (l : Lane) (f : LaneSlot → LaneSlot) : (modifySlot s l f).sections = s.sections := by unfold modifySlot; split <;> rfl
@[simp] theorem modifySlot_segregation (l : Lane) (f : LaneSlot → LaneSlot) : (modifySlot s l f).segregation = s.segregation := by unfold modifySlot; split <;> rfl
@[simp] theorem modifySlot_limits (l : Lane) (f : LaneSlot → LaneSlot) : (modifySlot s l f).limits = s.limits := by unfold modifySlot; split <;> rfl
@[simp] theorem modifySlot_policy (l : Lane) (f : LaneSlot → LaneSlot) : (modifySlot s l f).policy = s.policy := by unfold modifySlot; split <;> rfl
@[simp] theorem modifySlot_gaps (l : Lane) (f : LaneSlot → LaneSlot) : (modifySlot s l f).gaps = s.gaps := by unfold modifySlot; split <;> rfl
@[simp] theorem modifySlot_defaultUnit (l : Lane) (f : LaneSlot → LaneSlot) : (modifySlot s l f).defaultUnit = s.defaultUnit := by unfold modifySlot; split <;> rfl
@[simp] theorem modifySlot_records (l : Lane) (f : LaneSlot → LaneSlot) : (modifySlot s l f).records = s.records := by unfold modifySlot; split <;> rfl
@[simp] theorem modifySlot_departures (l : Lane) (f : LaneSlot → LaneSlot) : (modifySlot s l f).departures = s.departures := by unfold modifySlot; split <;> rfl
@[simp] theorem modifySlot_offers (l : Lane) (f : LaneSlot → LaneSlot) : (modifySlot s l f).offers = s.offers := by unfold modifySlot; split <;> rfl
@[simp] theorem modifySlot_reservations (l : Lane) (f : LaneSlot → LaneSlot) : (modifySlot s l f).reservations = s.reservations := by unfold modifySlot; split <;> rfl
@[simp] theorem modifySlot_trials (l : Lane) (f : LaneSlot → LaneSlot) : (modifySlot s l f).trials = s.trials := by unfold modifySlot; split <;> rfl
@[simp] theorem modifySlot_chainSeq (l : Lane) (f : LaneSlot → LaneSlot) : (modifySlot s l f).chainSeq = s.chainSeq := by unfold modifySlot; split <;> rfl
@[simp] theorem modifySlot_holds (l : Lane) (f : LaneSlot → LaneSlot) : (modifySlot s l f).holds = s.holds := by unfold modifySlot; split <;> rfl
@[simp] theorem modifySlot_voyage (l : Lane) (f : LaneSlot → LaneSlot) : (modifySlot s l f).voyage = s.voyage := by unfold modifySlot; split <;> rfl
@[simp] theorem modifySlot_pendingClear (l : Lane) (f : LaneSlot → LaneSlot) : (modifySlot s l f).pendingClear = s.pendingClear := by unfold modifySlot; split <;> rfl
@[simp] theorem modifySlot_stowClock (l : Lane) (f : LaneSlot → LaneSlot) : (modifySlot s l f).stowClock = s.stowClock := by unfold modifySlot; split <;> rfl
@[simp] theorem modifySlot_heelOffset (l : Lane) (f : LaneSlot → LaneSlot) : (modifySlot s l f).heelOffset = s.heelOffset := by unfold modifySlot; split <;> rfl
@[simp] theorem modifySlot_trimOffset (l : Lane) (f : LaneSlot → LaneSlot) : (modifySlot s l f).trimOffset = s.trimOffset := by unfold modifySlot; split <;> rfl
@[simp] theorem modifySlot_reportSerial (l : Lane) (f : LaneSlot → LaneSlot) : (modifySlot s l f).reportSerial = s.reportSerial := by unfold modifySlot; split <;> rfl
@[simp] theorem modifySlot_reportState (l : Lane) (f : LaneSlot → LaneSlot) : (modifySlot s l f).reportState = s.reportState := by unfold modifySlot; split <;> rfl
@[simp] theorem modifySlot_reportTimer (l : Lane) (f : LaneSlot → LaneSlot) : (modifySlot s l f).reportTimer = s.reportTimer := by unfold modifySlot; split <;> rfl
@[simp] theorem modifySlot_report (l : Lane) (f : LaneSlot → LaneSlot) : (modifySlot s l f).report = s.report := by unfold modifySlot; split <;> rfl
@[simp] theorem modifySlot_emitting (l : Lane) (f : LaneSlot → LaneSlot) : (modifySlot s l f).emitting = s.emitting := by unfold modifySlot; split <;> rfl
@[simp] theorem modifySlot_buffer (l : Lane) (f : LaneSlot → LaneSlot) : (modifySlot s l f).buffer = s.buffer := by unfold modifySlot; split <;> rfl
@[simp] theorem modifySlot_heldToken (l : Lane) (f : LaneSlot → LaneSlot) : (modifySlot s l f).heldToken = s.heldToken := by unfold modifySlot; split <;> rfl
@[simp] theorem modifySlot_log (l : Lane) (f : LaneSlot → LaneSlot) : (modifySlot s l f).log = s.log := by unfold modifySlot; split <;> rfl
@[simp] theorem modifySlot_nextExc (l : Lane) (f : LaneSlot → LaneSlot) : (modifySlot s l f).nextExc = s.nextExc := by unfold modifySlot; split <;> rfl
@[simp] theorem modifySlot_notices (l : Lane) (f : LaneSlot → LaneSlot) : (modifySlot s l f).notices = s.notices := by unfold modifySlot; split <;> rfl
@[simp] theorem modifySlot_enables (l : Lane) (f : LaneSlot → LaneSlot) : (modifySlot s l f).enables = s.enables := by unfold modifySlot; split <;> rfl
@[simp] theorem modifySlot_armed (l : Lane) (f : LaneSlot → LaneSlot) : (modifySlot s l f).armed = s.armed := by unfold modifySlot; split <;> rfl
@[simp] theorem modifySlot_rxFwd (l : Lane) (f : LaneSlot → LaneSlot) : (modifySlot s l f).rxFwd = s.rxFwd := by unfold modifySlot; split <;> rfl
@[simp] theorem modifySlot_rxRet (l : Lane) (f : LaneSlot → LaneSlot) : (modifySlot s l f).rxRet = s.rxRet := by unfold modifySlot; split <;> rfl
@[simp] theorem modifySlot_origFwd (l : Lane) (f : LaneSlot → LaneSlot) : (modifySlot s l f).origFwd = s.origFwd := by unfold modifySlot; split <;> rfl
@[simp] theorem modifySlot_origRet (l : Lane) (f : LaneSlot → LaneSlot) : (modifySlot s l f).origRet = s.origRet := by unfold modifySlot; split <;> rfl
@[simp] theorem modifySlot_passFwd (l : Lane) (f : LaneSlot → LaneSlot) : (modifySlot s l f).passFwd = s.passFwd := by unfold modifySlot; split <;> rfl
@[simp] theorem modifySlot_passRet (l : Lane) (f : LaneSlot → LaneSlot) : (modifySlot s l f).passRet = s.passRet := by unfold modifySlot; split <;> rfl
@[simp] theorem modifySlot_lastFwd (l : Lane) (f : LaneSlot → LaneSlot) : (modifySlot s l f).lastFwd = s.lastFwd := by unfold modifySlot; split <;> rfl
@[simp] theorem modifySlot_lastRet (l : Lane) (f : LaneSlot → LaneSlot) : (modifySlot s l f).lastRet = s.lastRet := by unfold modifySlot; split <;> rfl
@[simp] theorem modifySlot_drivenFwd (l : Lane) (f : LaneSlot → LaneSlot) : (modifySlot s l f).drivenFwd = s.drivenFwd := by unfold modifySlot; split <;> rfl
@[simp] theorem modifySlot_drivenRet (l : Lane) (f : LaneSlot → LaneSlot) : (modifySlot s l f).drivenRet = s.drivenRet := by unfold modifySlot; split <;> rfl

end Sys2Proof.Machine
end

