-- ==== Sys2Proof/Laws/Table.lean ====
section
/-! SUPPORT. What the table operations answer and that they keep the canonical form (keys strictly rising). -/

namespace Sys2Proof.Machine

variable {α : Type}

theorem Table.mem_put {key : Nat} {a : α} {t : List (Nat × α)} {e : Nat × α} (h : e ∈ Table.put key a t) :
    e = (key, a) ∨ e ∈ t := by
  induction t with
  | nil => exact .inl (by simpa [Table.put] using h)
  | cons x t ih =>
    obtain ⟨k, v⟩ := x
    simp only [Table.put] at h
    split at h
    · exact (List.mem_cons.1 h).imp_right id
    · split at h
      · exact (List.mem_cons.1 h).imp_right (List.mem_cons_of_mem _)
      · rcases List.mem_cons.1 h with h | h
        · exact .inr (h ▸ List.mem_cons_self)
        · exact (ih h).imp_right (List.mem_cons_of_mem _)

theorem Table.risingFrom_mono {lo lo' : Nat} (hl : lo' ≤ lo) {t : List (Nat × α)} (h : Table.risingFrom lo t = true) :
    Table.risingFrom lo' t = true := by
  cases t with
  | nil => rfl
  | cons x t =>
    simp only [Table.risingFrom, Bool.and_eq_true, decide_eq_true_eq] at h ⊢
    exact ⟨hl.trans h.1, h.2⟩

theorem Table.risingFrom_put {key : Nat} {a : α} {t : List (Nat × α)} {lo : Nat} (hk : lo ≤ key)
    (h : Table.risingFrom lo t = true) : Table.risingFrom lo (Table.put key a t) = true := by
  induction t generalizing lo with
  | nil => simp [Table.put, Table.risingFrom, hk]
  | cons x t ih =>
    obtain ⟨k, v⟩ := x
    simp only [Table.risingFrom, Bool.and_eq_true, decide_eq_true_eq] at h
    simp only [Table.put]
    split
    · rename_i hlt
      simp only [Table.risingFrom, Bool.and_eq_true, decide_eq_true_eq]
      exact ⟨hk, hlt, h.2⟩
    · split
      · rename_i heq
        subst heq
        simp only [Table.risingFrom, Bool.and_eq_true, decide_eq_true_eq]
        exact ⟨hk, h.2⟩
      · simp only [Table.risingFrom, Bool.and_eq_true, decide_eq_true_eq]
        exact ⟨h.1, ih (by omega) h.2⟩

/-- A put keeps the keys strictly rising. -/
theorem Table.rising_put {key : Nat} {a : α} {t : List (Nat × α)} (h : Table.rising t = true) :
    Table.rising (Table.put key a t) = true := Table.risingFrom_put (Nat.zero_le _) h

theorem Table.risingFrom_filter (p : Nat × α → Bool) {t : List (Nat × α)} {lo : Nat}
    (h : Table.risingFrom lo t = true) : Table.risingFrom lo (t.filter p) = true := by
  induction t generalizing lo with
  | nil => rfl
  | cons x t ih =>
    obtain ⟨k, v⟩ := x
    simp only [Table.risingFrom, Bool.and_eq_true, decide_eq_true_eq] at h
    rw [List.filter_cons]
    split
    · simp only [Table.risingFrom, Bool.and_eq_true, decide_eq_true_eq]
      exact ⟨h.1, ih h.2⟩
    · exact Table.risingFrom_mono (by omega) (ih h.2)

/-- A drop keeps the keys strictly rising. -/
theorem Table.rising_drop {key : Nat} {t : List (Nat × α)} (h : Table.rising t = true) :
    Table.rising (Table.drop key t) = true := Table.risingFrom_filter _ h

/-- A change of the values alone keeps the keys strictly rising. -/
theorem Table.rising_map {β : Type} (f : Nat × α → β) {t : List (Nat × α)} (h : Table.rising t = true) :
    Table.rising (t.map fun e => (e.1, f e)) = true := by
  have go : ∀ (t : List (Nat × α)) (lo : Nat), Table.risingFrom lo t = true →
      Table.risingFrom lo (t.map fun e => (e.1, f e)) = true := by
    intro t
    induction t with
    | nil => intros; rfl
    | cons x t ih =>
      intro lo h
      simp only [Table.risingFrom, Bool.and_eq_true, decide_eq_true_eq, List.map_cons] at h ⊢
      exact ⟨h.1, ih _ h.2⟩
  exact go t 0 h

/-- A read at the key just put. -/
@[simp] theorem Table.find_put_self (key : Nat) (a : α) (t : List (Nat × α)) :
    Table.find (Table.put key a t) key = some a := by
  induction t with
  | nil => simp [Table.put, Table.find]
  | cons x t ih =>
    obtain ⟨k, v⟩ := x
    simp only [Table.put]
    split
    · simp [Table.find]
    · split
      · simp [Table.find]
      · rename_i h1 h2
        simp [Table.find, Ne.symm h2, ih]

/-- A read at another key than the one put. -/
theorem Table.find_put_other {key key' : Nat} (a : α) (t : List (Nat × α)) (h : key' ≠ key) :
    Table.find (Table.put key a t) key' = Table.find t key' := by
  induction t with
  | nil => simp [Table.put, Table.find, Ne.symm h]
  | cons x t ih =>
    obtain ⟨k, v⟩ := x
    simp only [Table.put]
    split
    · simp [Table.find, Ne.symm h]
    · split
      · rename_i h1 h2
        subst h2
        simp [Table.find, Ne.symm h]
      · simp [Table.find, ih]

/-- A read at the key just dropped. -/
@[simp] theorem Table.find_drop_self (key : Nat) (t : List (Nat × α)) : Table.find (Table.drop key t) key = none := by
  induction t with
  | nil => rfl
  | cons x t ih =>
    obtain ⟨k, v⟩ := x
    unfold Table.drop at ih ⊢
    rw [List.filter_cons]
    split
    · rename_i hk
      have : k ≠ key := by simpa using hk
      simp [Table.find, this, ih]
    · exact ih

/-- A read at another key than the one dropped. -/
theorem Table.find_drop_other {key key' : Nat} (t : List (Nat × α)) (h : key' ≠ key) :
    Table.find (Table.drop key t) key' = Table.find t key' := by
  induction t with
  | nil => rfl
  | cons x t ih =>
    obtain ⟨k, v⟩ := x
    unfold Table.drop at ih ⊢
    rw [List.filter_cons]
    split
    · simp [Table.find, ih]
    · rename_i hk
      have : k = key := by simpa using hk
      simp [Table.find, this, Ne.symm h, ih]

theorem Table.find_mem {t : List (Nat × α)} {key : Nat} {a : α} (h : Table.find t key = some a) : (key, a) ∈ t := by
  induction t with
  | nil => simp [Table.find] at h
  | cons x t ih =>
    obtain ⟨k, v⟩ := x
    simp only [Table.find] at h
    split at h
    · rename_i hk
      subst hk
      cases h
      exact List.mem_cons_self
    · exact List.mem_cons_of_mem _ (ih h)

theorem Table.risingFrom_mem {t : List (Nat × α)} {lo : Nat} (h : Table.risingFrom lo t = true) {e : Nat × α} (he : e ∈ t) :
    lo ≤ e.1 := by
  induction t generalizing lo with
  | nil => simp at he
  | cons x t ih =>
    simp only [Table.risingFrom, Bool.and_eq_true, decide_eq_true_eq] at h
    rcases List.mem_cons.1 he with rfl | he
    · exact h.1
    · exact (Nat.le_succ_of_le h.1).trans (ih h.2 he)

theorem Table.risingFrom_find {t : List (Nat × α)} {lo : Nat} (h : Table.risingFrom lo t = true) {e : Nat × α} (he : e ∈ t) :
    Table.find t e.1 = some e.2 := by
  induction t generalizing lo with
  | nil => simp at he
  | cons x t ih =>
    simp only [Table.risingFrom, Bool.and_eq_true, decide_eq_true_eq] at h
    rcases List.mem_cons.1 he with rfl | he
    · simp [Table.find]
    · have := Table.risingFrom_mem h.2 he
      rw [Table.find, if_neg (by omega)]
      exact ih h.2 he

/-- Every listed pair is what a read at its key answers. -/
theorem Table.find_of_mem {t : List (Nat × α)} (h : Table.rising t = true) {e : Nat × α} (he : e ∈ t) :
    Table.find t e.1 = some e.2 := Table.risingFrom_find h he

theorem Table.find_none_of_lt {t : List (Nat × α)} {lo n : Nat} (h : Table.risingFrom lo t = true) (hn : n < lo) :
    Table.find t n = none := by
  cases hf : Table.find t n with
  | none => rfl
  | some a => have := Table.risingFrom_mem h (Table.find_mem hf); simp at this; omega

/-- The first gap is no key. -/
theorem Table.find_firstGap {t : List (Nat × α)} {n : Nat} (h : Table.risingFrom n t = true) :
    Table.find t (Table.firstGap n t) = none := by
  induction t generalizing n with
  | nil => rfl
  | cons x t ih =>
    obtain ⟨k, v⟩ := x
    simp only [Table.risingFrom, Bool.and_eq_true, decide_eq_true_eq] at h
    simp only [Table.firstGap]
    have hge : ∀ (t : List (Nat × α)) (n : Nat), n ≤ Table.firstGap n t := by
      intro t
      induction t with
      | nil => intro n; exact le_refl _
      | cons y t ih2 =>
        intro n
        simp only [Table.firstGap]
        split
        · exact (Nat.le_succ n).trans (ih2 _)
        · exact le_refl _
    split
    · rename_i hk
      subst hk
      have := hge t (k + 1)
      rw [Table.find, if_neg (by omega)]
      exact ih h.2
    · rename_i hk
      rw [Table.find, if_neg hk]
      exact Table.find_none_of_lt h.2 (by omega)

/-- Every number below the first gap is a key. -/
theorem Table.find_below_firstGap {t : List (Nat × α)} {n k : Nat} (hn : n ≤ k) (hk : k < Table.firstGap n t) :
    Table.find t k ≠ none := by
  induction t generalizing n with
  | nil => exact absurd hk (Nat.not_lt.2 hn)
  | cons x t ih =>
    obtain ⟨j, v⟩ := x
    simp only [Table.firstGap] at hk
    rw [Table.find]
    split at hk
    · rename_i hj
      by_cases hjk : j = k
      · rw [if_pos hjk]; simp
      · rw [if_neg hjk]; exact ih (by omega) hk
    · exact absurd hk (Nat.not_lt.2 hn)

end Sys2Proof.Machine
end

