-- ==== Sys2Proof/Laws/Ops.lean ====
section
/-! SUPPORT. For each shared operation, once, everything it can change: the rest of the state stands. And what the reads of
records, queues and lanes answer after the plain writes. -/

namespace Sys2Proof.Machine

/-! ## Records -/

/-- A record just written is what a read answers. -/
@[simp] theorem getRec_setRec_self (s : State) (h : Handle) (r : UnitRec) : getRec (setRec s h r) h = r := by
  unfold getRec
  rw [setRec_records]
  split
  · rename_i hr; simp [hr]
  · simp

/-- A read of another record. -/
theorem getRec_setRec_other (s : State) {h g : Handle} (r : UnitRec) (hg : g ≠ h) :
    getRec (setRec s h r) g = getRec s g := by
  unfold getRec
  rw [setRec_records]
  split
  · rw [Table.find_drop_other _ hg]
  · rw [Table.find_put_other _ _ hg]

/-- A read after a write, in one equation. -/
theorem getRec_setRec (s : State) (h g : Handle) (r : UnitRec) :
    getRec (setRec s h r) g = if g = h then r else getRec s g := by
  split
  · rename_i hg; rw [hg, getRec_setRec_self]
  · rename_i hg; exact getRec_setRec_other s r hg

/-- A record is read from the unit table alone. -/
theorem getRec_congr {s t : State} (h : s.records = t.records) (g : Handle) : getRec s g = getRec t g := by
  unfold getRec; rw [h]

/-! ## Operations on records and lanes -/

theorem setRec_only (s : State) (h : Handle) (r : UnitRec) : setRec s h r = { s with records := (setRec s h r).records } := rfl

theorem modifySlot_only (s : State) (l : Lane) (f : LaneSlot → LaneSlot) :
    modifySlot s l f = { s with lanes := (modifySlot s l f).lanes } := by
  unfold modifySlot; split <;> rfl

/-- The slots after one is modified. -/
theorem modifySlot_lanes (s : State) (l : Lane) (f : LaneSlot → LaneSlot) :
    (modifySlot s l f).lanes = if s.rangeBase ≤ l then s.lanes.modify (l - s.rangeBase) f else s.lanes := by
  unfold modifySlot; split <;> rfl

theorem setOccupants_only (s : State) (l : Lane) (o : List Handle) :
    setOccupants s l o = { s with lanes := (setOccupants s l o).lanes } := modifySlot_only s l _

theorem setSuspect_only (s : State) (l : Lane) (b : Bool) :
    setSuspect s l b = { s with lanes := (setSuspect s l b).lanes } := modifySlot_only s l _

theorem packFrom_only (a : Int) (hs : List Handle) (aft : Option Nat) (s : State) :
    packFrom a aft hs s = { s with records := (packFrom a aft hs s).records } := by
  induction hs generalizing aft s with
  | nil => rfl
  | cons h t ih => simp only [packFrom]; rw [ih]; rfl

/-- Compaction writes the unit table alone. -/
theorem compact_only (s : State) (l : Lane) : compact s l = { s with records := (compact s l).records } :=
  packFrom_only _ _ _ _

/-- Listing at the tail writes the unit table and the lane lists alone. -/
theorem listAtTail_only (s : State) (h : Handle) (l : Lane) :
    listAtTail s h l = { s with records := (listAtTail s h l).records, lanes := (listAtTail s h l).lanes } := by
  unfold listAtTail; split
  · rw [setOccupants_only]; rfl
  · rfl

theorem placeAboard_only (s : State) (h : Handle) (l : Lane) :
    placeAboard s h l = { s with records := (placeAboard s h l).records, lanes := (placeAboard s h l).lanes } := by
  simp only [placeAboard]; rw [compact_only, setOccupants_only]; rfl

/-- Listing behind the last ABOARD occupant writes the unit table and the lane lists alone. -/
theorem listBehindAboard_only (s : State) (h : Handle) (l : Lane) :
    listBehindAboard s h l
      = { s with records := (listBehindAboard s h l).records, lanes := (listBehindAboard s h l).lanes } := by
  unfold listBehindAboard; split
  · exact placeAboard_only s h l
  · rfl

/-- A promotion writes the unit table and the lane lists alone. -/
theorem promote_only (s : State) (h : Handle) (l : Lane) :
    promote s h l = { s with records := (promote s h l).records, lanes := (promote s h l).lanes } := by
  unfold promote; rw [placeAboard_only, setOccupants_only]

/-- Unlisting writes the unit table and the lane lists alone. -/
theorem unlist_only (s : State) (h : Handle) :
    unlist s h = { s with records := (unlist s h).records, lanes := (unlist s h).lanes } := by
  unfold unlist; split
  · rfl
  · simp only []; rw [compact_only, setOccupants_only]; rfl

/-- Freeing a record writes the unit table, the lane lists and the order of departure alone. -/
theorem freeRec_only (s : State) (h : Handle) :
    freeRec s h
      = { s with records := (freeRec s h).records, lanes := (freeRec s h).lanes, departures := (freeRec s h).departures } := by
  unfold freeRec; simp only []; split
  · rw [unlist_only]; rfl
  · rfl

theorem freeAll_only (hs : List Handle) (s : State) :
    freeAll hs s
      = { s with records := (freeAll hs s).records, lanes := (freeAll hs s).lanes, departures := (freeAll hs s).departures } := by
  induction hs generalizing s with
  | nil => rfl
  | cons h t ih => simp only [freeAll]; rw [ih, freeRec_only]

/-- A departure writes the unit table, the lane lists and the order of departure alone. -/
theorem makeLeft_only (s : State) (h : Handle) :
    makeLeft s h
      = { s with records := (makeLeft s h).records, lanes := (makeLeft s h).lanes, departures := (makeLeft s h).departures } := by
  simp only [makeLeft]; rw [unlist_only]; rfl

/-- An allocation writes the unit table, the order of departure and the notices alone. -/
theorem allocate_only {s t : State} {h : Handle} (e : allocate s = some (h, t)) :
    t = { s with records := t.records, departures := t.departures, notices := t.notices } := by
  unfold allocate at e
  split at e
  · cases e; rfl
  · split at e
    · cases e
    · cases e; rfl

/-- Joining the reservation list writes the unit table and that list alone. -/
theorem joinReservations_only (s : State) (h : Handle) :
    joinReservations s h
      = { s with records := (joinReservations s h).records, reservations := (joinReservations s h).reservations } := rfl

theorem makeReserved_only (s : State) (h : Handle) :
    makeReserved s h
      = { s with records := (makeReserved s h).records, reservations := (makeReserved s h).reservations } := rfl

/-- A withdrawn offer touches the Stow Map, the order of departure and the offer list alone. -/
theorem withdrawOffer_only (s : State) (h : Handle) :
    withdrawOffer s h
      = { s with
          records := (withdrawOffer s h).records, lanes := (withdrawOffer s h).lanes
          departures := (withdrawOffer s h).departures, offers := s.offers.filter (· != h) } := by
  unfold withdrawOffer; rw [freeRec_only]

/-- A dropped reservation touches the Stow Map, the order of departure and the reservation list alone. -/
theorem dropReservation_only (s : State) (h : Handle) :
    dropReservation s h
      = { s with
          records := (dropReservation s h).records, lanes := (dropReservation s h).lanes
          departures := (dropReservation s h).departures, reservations := s.reservations.filter (· != h) } := by
  unfold dropReservation; rw [freeRec_only]

/-! ## The log and the notices -/

/-- Posting writes the log, the next sequence number and the notices alone. -/
theorem post_only (s : State) (k : ExcKind) (m : Option Mark) (l : Option Lane) (m2 : Option Mark) (d : Option ExcDetail) :
    post s k m l m2 d
      = { s with log := (post s k m l m2 d).log, nextExc := (post s k m l m2 d).nextExc
                 notices := (post s k m l m2 d).notices } := by
  unfold post; split <;> rfl

/-- The stability test writes the notices alone. -/
theorem testStability_only (s : State) : testStability s = { s with notices := (testStability s).notices } := by
  unfold testStability; split <;> rfl

/-! ## Frames and events -/

/-- An event that sets no flag ends as it stands. -/
theorem endEvent_same {s t : State} (h : t.notices = s.notices) : endEvent s t = t := by
  unfold endEvent
  have : noticeAny (noticeAnd (noticeMinus t.notices s.notices) t.enables) = false := by
    rw [h]; simp [noticeAny, noticeAnd, noticeMinus]
  simp [this]

end Sys2Proof.Machine
end

