-- ==== Sys2Proof/Laws/Frames.lean ====
section
/-! SUPPORT. What taking a frame comes to, once: ready, waiting in line, or held in reset; what a served request leaves; and what
keeps the laws of the hold list. -/

namespace Sys2Proof.Machine

/-- A frame that is ready, of a row whose own condition holds, is taken and acted on. -/
theorem takeFrame_ready {p : InPort} {f : Frame} {mine : State → Bool} {act : State → State} {s : State} (h : Ready p f s)
    (hm : mine s = true) : takeFrame p f mine act s = endEvent s (act (took p s)) := by
  obtain ⟨h1, h2, h3⟩ := h
  simp [takeFrame, h1, h2, h3, hm, took]

/-- A frame first in line that is not taken leaves everything as it stands. -/
theorem takeFrame_waits {p : InPort} {f : Frame} {mine : State → Bool} {act : State → State} {s : State}
    (h : (rxQueue s p).head? = some f) (hi : intakeOpen s = false ∨ mine s = false) : takeFrame p f mine act s = s := by
  have he : endEvent s s = s := endEvent_same rfl
  rcases hi with hi | hi <;> simp [takeFrame, h, hi, he]

/-- In reset nothing is taken. -/
theorem takeFrame_reset {p : InPort} {f : Frame} {mine : State → Bool} {act : State → State} {s : State}
    (h : s.inReset = true) : takeFrame p f mine act s = s := by simp [takeFrame, h]

/-- An addressed request is acted on, clears pending-clear and is answered. -/
theorem serve_addressed {q : ReqHead} {body : ReqBody} {act : State → Answer} {s : State} (h : Addressed q body s) :
    serve q body act s = endEvent s (finish q (clearPending (act (took .fwd s)))) :=
  takeFrame_ready h.1 (by simp [isTarget, h.2])

/-- A request answered with nothing else changed. -/
theorem serve_replies {q : ReqHead} {body : ReqBody} {act : State → Answer} {s : State} (h : Addressed q body s)
    {code : ReplyCode} {b : ReplyBody} (ha : act (took .fwd s) = { st := took .fwd s, code := code, body := b, after := .nothing }) :
    serve q body act s = replied q code b s := by
  rw [serve_addressed h, ha, endEvent_same] <;> rfl

/-- A request answered with its effect, no flag set and nothing to follow. -/
theorem serve_next {q : ReqHead} {body : ReqBody} {act : State → Answer} {s t : State} (h : Addressed q body s)
    {code : ReplyCode} {b : ReplyBody} (ha : act (took .fwd s) = { st := t, code := code, body := b, after := .nothing })
    (hn : t.notices = s.notices) :
    serve q body act s
      = { t with pendingClear := false, origRet := t.origRet ++ [.reply q.tag t.position code b] } := by
  rw [serve_addressed h, ha, endEvent_same]
  · rfl
  · exact hn

/-- A request answered with its effect and nothing to follow. -/
theorem serve_event {q : ReqHead} {body : ReqBody} {act : State → Answer} {s t : State} (h : Addressed q body s)
    {code : ReplyCode} {b : ReplyBody} (ha : act (took .fwd s) = { st := t, code := code, body := b, after := .nothing }) :
    serve q body act s
      = endEvent s { t with pendingClear := false, origRet := t.origRet ++ [.reply q.tag t.position code b] } := by
  rw [serve_addressed h, ha]; rfl

/-- A request answered with its effect and a capacity-freed event behind the REPLY (R105). -/
theorem serve_freed {q : ReqHead} {body : ReqBody} {act : State → Answer} {s t : State} (h : Addressed q body s)
    {code : ReplyCode} {b : ReplyBody} (ha : act (took .fwd s) = { st := t, code := code, body := b, after := .freed }) :
    serve q body act s
      = endEvent s
          (capacityFreed { t with pendingClear := false, origRet := t.origRet ++ [.reply q.tag t.position code b] }) := by
  rw [serve_addressed h, ha]; rfl

/-- Behind another frame, a command's frame joins the tail of the queue, or is lost in a full one (R183). -/
theorem takeFrame_behind {p : InPort} {f g : Frame} {mine : State → Bool} {act : State → State} {s : State}
    (hr : s.inReset = false) (hu : unconnected s p = false) (h : (rxQueue s p).head? = some g) (hg : g ≠ f) :
    takeFrame p f mine act s =
      (if (rxQueue s p).length < 16 then setRxQueue s (rxQueue s p ++ [f]) p else endEvent s (raiseNotice s .linkError)) := by
  have hne : ¬ (rxQueue s p).head? = some f := by rw [h]; simpa using hg
  unfold takeFrame
  simp only [hr, Bool.false_eq_true, if_false, hne]
  by_cases hl : (rxQueue s p).length < 16
  · have ha : arrive s p f = setRxQueue s (rxQueue s p ++ [f]) p := by
      have : (rxQueue s p).length < Config.rxCapacity := hl
      simp only [arrive, hu, Bool.false_eq_true, if_false, if_pos this]
    have hq : rxQueue (setRxQueue s (rxQueue s p ++ [f]) p) p = rxQueue s p ++ [f] := by cases p <;> rfl
    have hh : ¬ (rxQueue s p ++ [f]).head? = some f := by
      cases hs : rxQueue s p <;> simp_all
    rw [ha, hq, if_pos hl]
    simp only [hh, decide_false, Bool.and_false, Bool.false_and, Bool.false_eq_true, if_false]
    rw [endEvent_same]; simp
  · have ha : arrive s p f = raiseNotice s .linkError := by
      have : ¬ (rxQueue s p).length < Config.rxCapacity := hl
      simp only [arrive, hu, Bool.false_eq_true, if_false, if_neg this]
    have hq : rxQueue (raiseNotice s .linkError) p = rxQueue s p := by cases p <;> rfl
    rw [ha, hq, if_neg hl]
    simp [hne]

/-- On an empty queue, a command's frame is taken as if it stood there. -/
theorem takeFrame_empty {p : InPort} {f : Frame} {mine : State → Bool} {act : State → State} {s : State}
    (hr : s.inReset = false) (hu : unconnected s p = false) (h : rxQueue s p = []) :
    takeFrame p f mine act s = takeFrame p f mine act (setRxQueue s [f] p) := by
  have hq : rxQueue (setRxQueue s [f] p) p = [f] := by cases p <;> rfl
  unfold takeFrame
  have h1 : ¬ (rxQueue s p).head? = some f := by simp [h]
  have h2 : arrive s p f = setRxQueue s [f] p := by simp [arrive, hu, h, Config.rxCapacity]
  simp only [hr, setRxQueue_inReset, Bool.false_eq_true, if_false, h1, h2, hq, List.head?_cons, if_true]
  unfold endEvent
  simp

/-! ## The hold list -/

/-- Entries taken off a hold list leave its laws as they are (R106). -/
theorem holdsLawful_of_sublist {k l : List HoldEntry} (h : HoldsLawful l) (s : k.Sublist l) : HoldsLawful k :=
  ⟨s.length_le.trans h.1, (s.map _).nodup h.2.1, fun e he => h.2.2 e (s.subset he)⟩

@[simp] theorem descMark_descToLong (d : Desc) : descMark (descToLong d) = descMark d := by cases d <;> rfl

/-- Holding a unit keeps the laws of the hold list (R94, R106, R108). -/
theorem holdUnit_lawful {s : State} (h : HoldsLawful s.holds) (c : Confirm) (r : NoneReason) : HoldsLawful (holdUnit s c r).holds := by
  unfold holdUnit; split
  · exact h
  · split
    · exact h
    · rename_i retry
      dsimp only; split
      · rename_i room
        have kept := holdsLawful_of_sublist h (List.filter_sublist (p := fun e => descMark e.desc != descMark c.desc))
        refine ⟨by simpa using room, ?_, fun e he => ?_⟩
        · rw [List.map_append, List.nodup_append]
          refine ⟨kept.2.1, by simp, fun a ha b hb => ?_⟩
          obtain ⟨e, he, rfl⟩ := List.mem_map.1 ha
          have other := List.of_mem_filter he
          simp only [holdEntryOf, descMark_descToLong, List.map_cons, List.map_nil, List.mem_singleton] at hb
          subst hb; simpa using other
        · rcases List.mem_append.1 he with he | he
          · exact kept.2.2 e he
          · rw [List.mem_singleton.1 he]
            unfold holdEntryOf; dsimp only; split
            · rename_i set; simpa [set] using retry
            · decide
      · exact h

end Sys2Proof.Machine
end

