-- ==== Sys2Proof/Laws/Layout.lean ====
section
/-! SUPPORT. What the byte operations of a body can give: lengths, widths, where a number is read, and the offset
field of a layout (R182, R191); and one bit of the frame check. -/

namespace Sys2Proof.Machine

@[simp] theorem beBytes_size (k n : Nat) : (beBytes k n).length = k := by
  induction k with
  | zero => rfl
  | succ k ih => simp [beBytes, ih]

/-- Reading on from a value: the bytes of a number shift it up and stand below it. -/
theorem beNat_foldl (k n a : Nat) :
    (beBytes k n).foldl (fun n b => n * 256 + b.toNat) a = a * 256 ^ k + n % 256 ^ k := by
  induction k generalizing a with
  | zero => simp [beBytes, Nat.mod_one]
  | succ k ih =>
    have low : n % 256 ^ (k + 1) = n % 256 ^ k + 256 ^ k * (n / 256 ^ k % 256) := by rw [Nat.pow_succ]; exact Nat.mod_mul
    have top : 256 ^ (k + 1) = 256 * 256 ^ k := by rw [Nat.pow_succ, Nat.mul_comm]
    simp only [beBytes, List.foldl_cons]
    rw [ih, BitVec.toNat_ofNat, low, top]
    norm_num1
    generalize n / 256 ^ k % 256 = y
    generalize 256 ^ k = w
    rw [Nat.add_mul, Nat.mul_assoc, Nat.mul_comm y w]; omega

/-- The bytes of a number that fits them give it back. -/
theorem beNat_beBytes {k n : Nat} (h : n < 256 ^ k) : beNat (beBytes k n) = n := by
  unfold beNat; rw [beNat_foldl, Nat.mod_eq_of_lt h]; simp

/-- A number that stands at byte `i` of some bytes is read there. -/
theorem beNat_window {l a c : List Byte} {i k n : Nat} (h : l = a ++ (beBytes k n ++ c)) (ha : a.length = i) :
    beNat ((l.drop i).take k) = n % 256 ^ k := by
  subst ha; rw [h, List.drop_left, List.take_left' (beBytes_size k n)]
  unfold beNat; rw [beNat_foldl]; simp

/-- One bit of the check is linear: what stands in both registers may be shifted apart (R182). -/
theorem crcShift_xor (c x : BitVec 16) :
    crcShift (c ^^^ x) = (if c.msb ≠ x.msb then (c <<< 1) ^^^ 0x1021#16 else c <<< 1) ^^^ (x <<< 1) := by
  have swap : ∀ a b p : BitVec 16, a ^^^ b ^^^ p = a ^^^ p ^^^ b := by
    intro a b p; rw [BitVec.xor_assoc, BitVec.xor_comm b p, ← BitVec.xor_assoc]
  unfold crcShift
  rw [BitVec.msb_xor, BitVec.shiftLeft_xor_distrib]
  cases c.msb <;> cases x.msb <;> simp [swap]

@[simp] theorem signedBytes_size (k : Nat) (i : Int) : (signedBytes k i).length = k := beBytes_size _ _

/-- An offset field never reaches the bits beside it (log 30). -/
theorem fitOffset_lt (bits offset : Nat) : fitOffset bits offset < 2 ^ bits := by
  unfold fitOffset; split
  · assumption
  · exact Nat.mod_lt _ (Nat.two_pow_pos bits)

/-- An offset that fits its field stands in it as it is. -/
theorem fitOffset_of_lt {bits offset : Nat} (h : offset < 2 ^ bits) : fitOffset bits offset = offset := if_pos h

theorem bytesNeeded_bounds (n : Nat) : 1 ≤ bytesNeeded n ∧ bytesNeeded n ≤ 4 := by
  unfold bytesNeeded; split
  · omega
  · split
    · omega
    · split <;> omega

/-- A number of 32 bits fits the bytes it needs. -/
theorem bytesNeeded_holds {n : Nat} (h : n < 2 ^ 32) : n < 256 ^ bytesNeeded n := by
  unfold bytesNeeded; split
  · omega
  · split
    · omega
    · split <;> omega

/-- A number of open width takes 1 to 4 bytes. -/
theorem numberBytes_size (width n : Nat) : 1 ≤ (numberBytes width n).length ∧ (numberBytes width n).length ≤ 4 := by
  have := bytesNeeded_bounds n
  unfold numberBytes; rw [beBytes_size]; omega

/-- A part of one field is that field. -/
@[simp] theorem partBytes_single (f : Frame) (n : Nat) (x : Field) : partBytes f n [x] = fieldBytes f n 0 x := by
  simp [partBytes]

@[simp] theorem partBytes_nil (f : Frame) (n : Nat) : partBytes f n [] = [] := rfl

/-- A frame without named values, flags or sets has no bytes of them. -/
theorem otherBytes_nil {f : Frame} (h : hasOthers f = false) : otherBytes f = [] := by unfold otherBytes; rw [h]; rfl

theorem otherBytes_size (f : Frame) : (otherBytes f).length ≤ 36 := by
  unfold otherBytes; split
  · exact List.length_take_le _ _
  · exact Nat.zero_le _

end Sys2Proof.Machine
end

