-- ==== Sys2Proof/Laws/Stow.lean ====
section
/-! SUPPORT. What the shared operations over the Stow Map, the hold list and the log can do, said once each: a slot written
and read, packing, placing ABOARD, unlisting, freeing. Later proofs cite these and unfold no operation. -/

namespace Sys2Proof.Machine

/-- What a changed slot reads as, and that every other slot stands. -/
theorem slotOf_modify (s : State) (l m : Lane) (f : LaneSlot → LaneSlot) :
    slotOf (modifySlot s l f) m = if m = l then (slotOf s l).map f else slotOf s m := by
  unfold slotOf
  simp only [modifySlot_lanes, modifySlot_rangeBase]
  by_cases hl : s.rangeBase ≤ l
  · rw [if_pos hl]
    by_cases hm : m = l
    · subst hm; rw [if_pos rfl, if_pos hl, List.getElem?_modify_eq, if_pos hl]; rfl
    · rw [if_neg hm]
      by_cases hm2 : s.rangeBase ≤ m
      · rw [if_pos hm2, if_pos hm2, List.getElem?_modify_ne]; exact fun hx => hm (by have h1 := Nat.sub_add_cancel hl; have h2 := Nat.sub_add_cancel hm2; rw [hx, h2] at h1; exact h1)
      · rw [if_neg hm2, if_neg hm2]
  · rw [if_neg hl]
    by_cases hm : m = l
    · subst hm; rw [if_pos rfl, if_neg hl]; rfl
    · rw [if_neg hm]

theorem slotOf_congr {s t : State} (h1 : s.lanes = t.lanes) (h2 : s.rangeBase = t.rangeBase) (l : Lane) :
    slotOf s l = slotOf t l := by unfold slotOf; rw [h1, h2]

theorem slotOf_setOccupants (s : State) (l m : Lane) (o : List Handle) :
    slotOf (setOccupants s l o) m = if m = l then (slotOf s l).map (fun x => { x with occupants := o }) else slotOf s m :=
  slotOf_modify _ _ _ _

@[simp] theorem slotOf_setRec (s : State) (h : Handle) (r : UnitRec) (l : Lane) : slotOf (setRec s h r) l = slotOf s l := rfl

@[simp] theorem occupantsOf_setRec (s : State) (h : Handle) (r : UnitRec) (l : Lane) :
    occupantsOf (setRec s h r) l = occupantsOf s l := rfl

@[simp] theorem entryOf_setRec (s : State) (h : Handle) (r : UnitRec) (l : Lane) :
    entryOf (setRec s h r) l = entryOf s l := rfl

theorem occupantsOf_setOccupants_other (s : State) {l m : Lane} (o : List Handle) (h : m ≠ l) :
    occupantsOf (setOccupants s l o) m = occupantsOf s m := by
  unfold occupantsOf; rw [slotOf_setOccupants, if_neg h]

/-- An occupant list written to a slot of the range reads back. -/
theorem occupantsOf_setOccupants (s : State) {l : Lane} (o : List Handle) (h : (slotOf s l).isSome = true) :
    occupantsOf (setOccupants s l o) l = o := by
  unfold occupantsOf; rw [slotOf_setOccupants, if_pos rfl]
  cases hx : slotOf s l with
  | none => simp [hx] at h
  | some x => rfl

theorem entryOf_setOccupants (s : State) (l m : Lane) (o : List Handle) :
    entryOf (setOccupants s l o) m = entryOf s m := by
  unfold entryOf; rw [slotOf_setOccupants]
  split
  · rename_i h; subst h; cases slotOf s m <;> rfl
  · rfl

@[simp] theorem getRec_setOccupants (s : State) (l : Lane) (o : List Handle) (h : Handle) :
    getRec (setOccupants s l o) h = getRec s h := getRec_congr (by simp [setOccupants]) h

theorem hasRoom_slot {s : State} {l : Lane} (h : hasRoom s l = true) : (slotOf s l).isSome = true := by
  unfold hasRoom listable deckOf entryOf at h
  cases hx : slotOf s l with
  | none => simp [hx] at h
  | some x => rfl

theorem rec_eta (r : UnitRec) (a b c) (ha : r.offset = a) (hb : r.centre = b) (hc : r.changed = c) :
    r = { r with offset := a, centre := b, changed := c } := by subst ha hb hc; rfl

theorem reoffset_eta (a : Int) (r : UnitRec) (o : Nat) : reoffset a r o =
    { r with offset := (reoffset a r o).offset, centre := (reoffset a r o).centre, changed := (reoffset a r o).changed } := by
  unfold reoffset; split <;> rfl

theorem reoffset_offset (a : Int) (r : UnitRec) (o : Nat) : (reoffset a r o).offset = some o := by
  unfold reoffset; split
  · assumption
  · rfl

theorem reoffset_same (a : Int) (r : UnitRec) (o : Nat) (h : (reoffset a r o).offset = r.offset) : reoffset a r o = r := by
  rw [reoffset_offset] at h
  unfold reoffset; rw [if_pos h.symm]

theorem recKind_eta (r : UnitRec) (a b c) : recKind { r with offset := a, centre := b, changed := c } = recKind r := rfl

theorem packFrom_gaps (a : Int) (hs : List Handle) (aft : Option Nat) (s : State) : (packFrom a aft hs s).gaps = s.gaps := by
  rw [packFrom_only]

/-- All that packing can do: the handles packed stand behind one another, no other record changes, and a record changes in
offset, centre arm and CHANGED alone, only where its offset does (R31, R32). -/
theorem packFrom_spec (a : Int) (hs : List Handle) : ∀ (aft : Option Nat) (s : State), hs.Nodup →
    packedBehind (packFrom a aft hs s) aft hs = true
      ∧ (∀ g, g ∉ hs → getRec (packFrom a aft hs s) g = getRec s g)
      ∧ (∀ g, getRec (packFrom a aft hs s) g =
          { getRec s g with
            offset := (getRec (packFrom a aft hs s) g).offset, centre := (getRec (packFrom a aft hs s) g).centre
            changed := (getRec (packFrom a aft hs s) g).changed })
      ∧ (∀ g, (getRec (packFrom a aft hs s) g).offset = (getRec s g).offset → getRec (packFrom a aft hs s) g = getRec s g) := by
  induction hs with
  | nil => intro aft s _; exact ⟨rfl, fun _ _ => rfl, fun _ => rfl, fun _ _ => rfl⟩
  | cons h t ih =>
    intro aft s hn
    rw [List.nodup_cons] at hn
    obtain ⟨hh, ht⟩ := hn
    obtain ⟨i1, i2, i3, i4⟩ := ih (some (recAft (reoffset a (getRec s h) (offsetBehind s aft (recKind (getRec s h)))))) (setRec s h (reoffset a (getRec s h) (offsetBehind s aft (recKind (getRec s h))))) ht
    have e : packFrom a aft (h :: t) s = packFrom a (some (recAft (reoffset a (getRec s h) (offsetBehind s aft (recKind (getRec s h)))))) t (setRec s h (reoffset a (getRec s h) (offsetBehind s aft (recKind (getRec s h))))) := rfl
    rw [e]
    have eh := i2 h hh
    rw [getRec_setRec_self] at eh
    refine ⟨?_, ?_, ?_, ?_⟩
    · unfold packedBehind
      rw [Bool.and_eq_true]
      rw [eh]
      refine ⟨?_, i1⟩
      apply decide_eq_true
      rw [reoffset_offset]
      have hk : recKind (reoffset a (getRec s h) (offsetBehind s aft (recKind (getRec s h)))) = recKind (getRec s h) := by
        rw [reoffset_eta]; rfl
      rw [hk]; unfold offsetBehind; rw [packFrom_gaps]; rfl
    · intro g hg
      rw [i2 g (fun x => hg (List.mem_cons_of_mem _ x))]
      exact getRec_setRec_other _ _ (fun x => hg (x ▸ List.mem_cons_self))
    · intro g
      by_cases hg : g = h
      · subst hg; rw [eh]; exact reoffset_eta _ _ _
      · have := i3 g; rw [getRec_setRec_other _ _ hg] at this; exact this
    · intro g hgo
      by_cases hg : g = h
      · subst hg; rw [eh] at hgo ⊢; exact reoffset_same _ _ _ hgo
      · have := i4 g; rw [getRec_setRec_other _ _ hg] at this; exact this hgo

theorem packFrom_other (a : Int) (hs : List Handle) : ∀ (aft : Option Nat) (s : State) (g : Handle), g ∉ hs →
    getRec (packFrom a aft hs s) g = getRec s g := by
  induction hs with
  | nil => intro _ _ _ _; rfl
  | cons h t ih =>
    intro aft s g hg
    have e : packFrom a aft (h :: t) s = packFrom a (some (recAft (reoffset a (getRec s h) (offsetBehind s aft (recKind (getRec s h)))))) t (setRec s h (reoffset a (getRec s h) (offsetBehind s aft (recKind (getRec s h))))) := rfl
    rw [e, ih _ _ g (fun x => hg (List.mem_cons_of_mem _ x))]
    exact getRec_setRec_other _ _ (fun x => hg (x ▸ List.mem_cons_self))

theorem packFrom_eta (a : Int) (hs : List Handle) : ∀ (aft : Option Nat) (s : State) (g : Handle),
    ∃ o c k, getRec (packFrom a aft hs s) g = { getRec s g with offset := o, centre := c, changed := k } := by
  induction hs with
  | nil => intro _ s g; exact ⟨_, _, _, rfl⟩
  | cons h t ih =>
    intro aft s g
    have e : packFrom a aft (h :: t) s = packFrom a (some (recAft (reoffset a (getRec s h) (offsetBehind s aft (recKind (getRec s h)))))) t (setRec s h (reoffset a (getRec s h) (offsetBehind s aft (recKind (getRec s h))))) := rfl
    rw [e]
    obtain ⟨o, c, k, hi⟩ := ih (some (recAft (reoffset a (getRec s h) (offsetBehind s aft (recKind (getRec s h)))))) (setRec s h (reoffset a (getRec s h) (offsetBehind s aft (recKind (getRec s h))))) g
    by_cases hg : g = h
    · subst hg
      rw [getRec_setRec_self] at hi
      refine ⟨o, c, k, hi.trans ?_⟩
      rw [reoffset_eta]
    · rw [getRec_setRec_other _ _ hg] at hi; exact ⟨o, c, k, hi⟩

/-- Compaction changes no ABOARD record and no record of another lane (R32). -/
theorem compact_other {s : State} {l : Lane} {g : Handle} (h : g ∉ occupantsOf s l ∨ isAboard s g = true) :
    getRec (compact s l) g = getRec s g := by
  apply packFrom_other
  intro hm
  simp only [pendingPart, List.mem_filter] at hm
  rcases h with h | h
  · exact h hm.1
  · simp [h] at hm

theorem compact_eta (s : State) (l : Lane) (g : Handle) :
    ∃ o c k, getRec (compact s l) g = { getRec s g with offset := o, centre := c, changed := k } := packFrom_eta _ _ _ _ _

@[simp] theorem compact_slotOf (s : State) (l m : Lane) : slotOf (compact s l) m = slotOf s m :=
  slotOf_congr (by rw [compact_only]) (by rw [compact_only]) _

@[simp] theorem compact_occupantsOf (s : State) (l m : Lane) : occupantsOf (compact s l) m = occupantsOf s m := by
  unfold occupantsOf; rw [compact_slotOf]

theorem filter_congr_aboard {s t : State} {o : List Handle} (h : ∀ g ∈ o, isAboard t g = isAboard s g) :
    aboardPart t o = aboardPart s o ∧ pendingPart t o = pendingPart s o := by
  unfold aboardPart pendingPart
  refine ⟨List.filter_congr h, List.filter_congr ?_⟩
  intro g hg; rw [h g hg]

/-- All that placing a record ABOARD in a lane can do (R40, R41). -/
theorem placeAboard_spec (s : State) (h : Handle) (l : Lane) (hs : (slotOf s l).isSome = true) :
    let t := placeAboard s h l
    let ab := aboardPart s (occupantsOf s l)
    occupantsOf t l = ab ++ [h] ++ pendingPart s (occupantsOf s l)
      ∧ getRec t h = aboardRecord (getRec s h) l (offsetBehind s (aftOf s ab) (recKind (getRec s h))) (stopArmOf s l) s.stowClock
      ∧ (∀ g, g ≠ h → isAboard s g = true → getRec t g = getRec s g)
      ∧ (∀ g, g ≠ h → g ∉ occupantsOf s l → getRec t g = getRec s g)
      ∧ (∀ m, m ≠ l → slotOf t m = slotOf s m) := by
  dsimp only
  have ho : ∀ (s1 : State), (slotOf s1 l).isSome = true → occupantsOf (placeAboard s1 h l) l = aboardPart s1 (occupantsOf s1 l) ++ [h] ++ pendingPart s1 (occupantsOf s1 l) := by
    intro s1 h1
    unfold placeAboard; dsimp only; rw [compact_occupantsOf]; exact occupantsOf_setOccupants _ _ h1
  have hm : ∀ g, g ∈ aboardPart s (occupantsOf s l) ++ [h] ++ pendingPart s (occupantsOf s l) → g = h ∨ g ∈ occupantsOf s l := by
    intro g hg
    simp only [aboardPart, pendingPart, List.mem_append, List.mem_filter, List.mem_singleton] at hg
    tauto
  refine ⟨ho s hs, ?_, ?_, ?_, ?_⟩
  · unfold placeAboard; dsimp only
    rw [compact_other]
    · rw [getRec_setOccupants, getRec_setRec_self]
    · right; unfold isAboard; rw [getRec_setOccupants, getRec_setRec_self]; rfl
  · intro g hg ha
    unfold placeAboard; dsimp only
    rw [compact_other]
    · rw [getRec_setOccupants, getRec_setRec_other _ _ hg]
    · right; unfold isAboard; rw [getRec_setOccupants, getRec_setRec_other _ _ hg]; exact ha
  · intro g hg hno
    unfold placeAboard; dsimp only
    rw [compact_other]
    · rw [getRec_setOccupants, getRec_setRec_other _ _ hg]
    · left; rw [occupantsOf_setOccupants _ _ (show (slotOf (setRec s h _) l).isSome = true from hs)]; intro hx; rcases hm g hx with hx | hx
      · exact hg hx
      · exact hno hx
  · intro m hml
    unfold placeAboard; dsimp only
    rw [compact_slotOf, slotOf_setOccupants, if_neg hml]; rfl

theorem occ_some_slot {s : State} {l : Lane} : occupantsOf s l = [] ∨ (slotOf s l).isSome = true := by
  unfold occupantsOf; cases slotOf s l <;> simp

/-- All that unlisting a listed record can do (R42). -/
theorem unlist_spec (s : State) (h : Handle) (l : Lane) (hl : (getRec s h).lane = some l) :
    let t := unlist s h
    getRec t h = { getRec s h with offset := none, centre := none }
      ∧ occupantsOf t l = (occupantsOf s l).filter (· != h)
      ∧ (∀ m, m ≠ l → slotOf t m = slotOf s m)
      ∧ (∀ g, g ≠ h → isAboard s g = true → getRec t g = getRec s g)
      ∧ (∀ g, g ≠ h → g ∉ occupantsOf s l → getRec t g = getRec s g)
      ∧ (∀ g, g ≠ h → ∃ o c k, getRec t g = { getRec s g with offset := o, centre := c, changed := k }) := by
  dsimp only
  have e : unlist s h = compact (setOccupants (setRec s h { getRec s h with offset := none, centre := none }) l ((occupantsOf s l).filter (· != h))) l := by
    unfold unlist; rw [hl]; rfl
  have hocc : ∀ s1 : State, occupantsOf s1 l = occupantsOf s l → occupantsOf (setOccupants s1 l ((occupantsOf s l).filter (· != h))) l = (occupantsOf s l).filter (· != h) := by
    intro s1 h1
    rcases @occ_some_slot s1 l with hx | hx
    · rw [← h1, hx]; unfold occupantsOf; rw [slotOf_setOccupants, if_pos rfl]
      cases slotOf s1 l <;> rfl
    · exact occupantsOf_setOccupants _ _ hx
  rw [e]
  refine ⟨?_, ?_, ?_, ?_, ?_, ?_⟩
  · rw [compact_other]
    · rw [getRec_setOccupants, getRec_setRec_self]
    · left; rw [hocc (setRec s h _) rfl]; simp
  · rw [compact_occupantsOf, hocc (setRec s h _) rfl]
  · intro m hm; rw [compact_slotOf, slotOf_setOccupants, if_neg hm]; rfl
  · intro g hg ha
    rw [compact_other]
    · rw [getRec_setOccupants, getRec_setRec_other _ _ hg]
    · right; unfold isAboard; rw [getRec_setOccupants, getRec_setRec_other _ _ hg]; exact ha
  · intro g hg hn
    rw [compact_other]
    · rw [getRec_setOccupants, getRec_setRec_other _ _ hg]
    · left; rw [hocc (setRec s h _) rfl]; simp [hn]
  · intro g hg
    obtain ⟨o, c, k, hx⟩ := compact_eta (setOccupants (setRec s h { getRec s h with offset := none, centre := none }) l ((occupantsOf s l).filter (· != h))) l g
    rw [getRec_setOccupants, getRec_setRec_other _ _ hg] at hx
    exact ⟨o, c, k, hx⟩

theorem eta_of {r r' : UnitRec} (h : ∃ o c k, r = { r' with offset := o, centre := c, changed := k }) :
    r = { r' with offset := r.offset, centre := r.centre, changed := r.changed } := by
  obtain ⟨o, c, k, h⟩ := h; subst h; rfl

/-- The judgement touches the log and the notices alone (R120). -/
theorem judge_only (s : State) (m l rk a) :
    judge s m l rk a = { s with log := (judge s m l rk a).log, nextExc := (judge s m l rk a).nextExc, notices := (judge s m l rk a).notices } := by
  have h1 : ∀ s, postOrder s m l rk a = { s with log := (postOrder s m l rk a).log, nextExc := (postOrder s m l rk a).nextExc, notices := (postOrder s m l rk a).notices } := by
    intro s; unfold postOrder; split
    · rfl
    · split
      · exact post_only _ _ _ _ _ _
      · rfl
  have h2 : ∀ s, postMoving s m l = { s with log := (postMoving s m l).log, nextExc := (postMoving s m l).nextExc, notices := (postMoving s m l).notices } := by
    intro s; unfold postMoving; split
    · rfl
    · exact post_only _ _ _ _ _ _
  unfold judge
  rw [testStability_only, h2, h1]

theorem postLimit_only (s : State) (m l f) :
    postLimit s m l f = { s with log := (postLimit s m l f).log, nextExc := (postLimit s m l f).nextExc, notices := (postLimit s m l f).notices } := by
  unfold postLimit; split
  · rfl
  · exact post_only _ _ _ _ _ _

theorem postExitOrder_only (b s : State) (h m) :
    postExitOrder b s h m = { s with log := (postExitOrder b s h m).log, nextExc := (postExitOrder b s h m).nextExc, notices := (postExitOrder b s h m).notices } := by
  unfold postExitOrder; split
  · exact post_only _ _ _ _ _ _
  · rfl

theorem slotOf_setSuspect (s : State) (l m : Lane) (b : Bool) :
    slotOf (setSuspect s l b) m = if m = l then (slotOf s l).map (fun x => { x with suspect := b }) else slotOf s m :=
  slotOf_modify _ _ _ _

theorem emitAllFwd_eq (fs : List Frame) (s : State) : emitAllFwd fs s = { s with origFwd := s.origFwd ++ fs } := by
  induction fs generalizing s with
  | nil => simp [emitAllFwd]
  | cons f t ih => simp only [emitAllFwd]; rw [ih]; simp [emitFwd]

theorem emitAllRet_eq (fs : List Frame) (s : State) : emitAllRet fs s = { s with origRet := s.origRet ++ fs } := by
  induction fs generalizing s with
  | nil => simp [emitAllRet]
  | cons f t ih => simp only [emitAllRet]; rw [ih]; simp [emitRet]

/-- All that emptying the hold list can do, by role (R109). -/
theorem shutHolds_eq (s : State) (r : ShutReason) : shutHolds s r = { s with
    holds := if s.role = Role.head ∨ s.role = Role.sole then [] else s.holds
    origFwd := s.origFwd ++ (if s.role = Role.head ∨ s.role = Role.sole then s.holds.map (fun e => Frame.shutOut (descMark e.desc) r) else []) } := by
  unfold shutHolds hasHoldList
  by_cases h : s.role = Role.head ∨ s.role = Role.sole
  · rw [if_pos (by simpa using h), if_pos h, if_pos h, emitAllFwd_eq]
  · rw [if_neg (by simpa using h), if_neg h, if_neg h]; simp

theorem unlist_eta (s : State) (h g : Handle) :
    ∃ o c k, getRec (unlist s h) g = { getRec s g with offset := o, centre := c, changed := k } := by
  unfold unlist; split
  · exact ⟨_, _, _, rfl⟩
  · rename_i l _
    dsimp only
    obtain ⟨o, c, k, hx⟩ := compact_eta (setOccupants (setRec s h { getRec s h with offset := none, centre := none }) l ((occupantsOf (setRec s h { getRec s h with offset := none, centre := none }) l).filter (· != h))) l g
    rw [getRec_setOccupants, getRec_setRec] at hx
    split at hx
    · rename_i e; subst e; exact ⟨o, c, k, hx⟩
    · exact ⟨o, c, k, hx⟩

theorem unlist_aboard (s : State) (h g : Handle) (hg : g ≠ h) (ha : isAboard s g = true) :
    getRec (unlist s h) g = getRec s g := by
  cases hl : (getRec s h).lane with
  | none => unfold unlist; rw [hl]
  | some l => exact (unlist_spec s h l hl).2.2.2.1 g hg ha

theorem freeRec_self (s : State) (h : Handle) : getRec (freeRec s h) h = freeRecord := by
  unfold freeRec; dsimp only; show getRec (setRec _ h freeRecord) h = _; exact getRec_setRec_self _ _ _

theorem freeRec_eta (s : State) (h g : Handle) (hg : g ≠ h) :
    ∃ o c k, getRec (freeRec s h) g = { getRec s g with offset := o, centre := c, changed := k } := by
  unfold freeRec; dsimp only
  show ∃ o c k, getRec (setRec _ h freeRecord) g = _
  rw [getRec_setRec_other _ _ hg]; split
  · exact unlist_eta _ _ _
  · exact ⟨_, _, _, rfl⟩

/-- Freeing one record changes no other record that is ABOARD (R23, R42). -/
theorem freeRec_aboard (s : State) (h g : Handle) (hg : g ≠ h) (ha : isAboard s g = true) :
    getRec (freeRec s h) g = getRec s g := by
  unfold freeRec; dsimp only
  show getRec (setRec _ h freeRecord) g = _
  rw [getRec_setRec_other _ _ hg]; split
  · exact unlist_aboard _ _ _ hg ha
  · rfl

theorem freeAll_aboard (hs : List Handle) :
    ∀ (s : State) (g : Handle), g ∉ hs → isAboard s g = true → getRec (freeAll hs s) g = getRec s g := by
  induction hs with
  | nil => intro _ _ _ _; rfl
  | cons h t ih =>
    intro s g hg ha
    rw [List.mem_cons, not_or] at hg
    simp only [freeAll]
    have e := freeRec_aboard s h g hg.1 ha
    rw [ih _ _ hg.2 (by unfold isAboard; rw [e]; exact ha), e]

/-- Freeing records changes another record in offset, centre arm and CHANGED alone (R23, R42). -/
theorem freeAll_eta (hs : List Handle) :
    ∀ (s : State) (g : Handle), g ∉ hs → ∃ o c k, getRec (freeAll hs s) g = { getRec s g with offset := o, centre := c, changed := k } := by
  induction hs with
  | nil => intro _ _ _; exact ⟨_, _, _, rfl⟩
  | cons h t ih =>
    intro s g hg
    rw [List.mem_cons, not_or] at hg
    simp only [freeAll]
    obtain ⟨o, c, k, e⟩ := freeRec_eta s h g hg.1
    obtain ⟨o', c', k', e'⟩ := ih (freeRec s h) g hg.2
    rw [e] at e'; exact ⟨o', c', k', e'⟩

end Sys2Proof.Machine
end

