-- ==== Sys2Proof/Laws/Map.lean ====
section
/-! SUPPORT. The agreement of the Stow Map and the lists (`MapAgrees`): what keeps it where one record changes, what freeing
leaves of it, and what joining the reservation list and becoming RESERVED leave of a record and of the list. -/

namespace Sys2Proof.Machine

/-! ## One record changes -/

/-- A list is an ABOARD part ahead of a part not ABOARD. -/
def AboardFirst (s : State) (o : List Handle) : Prop :=
  ∃ p q, o = p ++ q ∧ (∀ g ∈ p, isAboard s g = true) ∧ (∀ g ∈ q, isAboard s g = false)

/-- Its two parts are the ABOARD part and the pending part. -/
theorem aboardFirst_parts {s : State} {o p q : List Handle} (h : o = p ++ q) (h1 : ∀ g ∈ p, isAboard s g = true)
    (h2 : ∀ g ∈ q, isAboard s g = false) : aboardPart s o = p ∧ pendingPart s o = q := by
  subst h
  unfold aboardPart pendingPart
  rw [List.filter_append, List.filter_append]
  have a1 : p.filter (isAboard s) = p := List.filter_eq_self.2 h1
  have a2 : q.filter (isAboard s) = [] := List.filter_eq_nil_iff.2 (fun g hg => by simp [h2 g hg])
  have a3 : p.filter (fun h => !isAboard s h) = [] := List.filter_eq_nil_iff.2 (fun g hg => by simp [h1 g hg])
  have a4 : q.filter (fun h => !isAboard s h) = q := List.filter_eq_self.2 (fun g hg => by simp [h2 g hg])
  rw [a1, a2, a3, a4]; simp

/-- The order of R29, in both wordings. -/
theorem aboardFirst_iff {s : State} {o : List Handle} : o = aboardPart s o ++ pendingPart s o ↔ AboardFirst s o := by
  constructor
  · intro h
    refine ⟨_, _, h, ?_, ?_⟩
    · intro g hg; exact (List.mem_filter.1 hg).2
    · intro g hg; simpa using (List.mem_filter.1 hg).2
  · rintro ⟨p, q, h, h1, h2⟩
    obtain ⟨e1, e2⟩ := aboardFirst_parts h h1 h2
    rw [e1, e2]; exact h

theorem AboardFirst.congr {s t : State} {o : List Handle} (h : AboardFirst s o)
    (e : ∀ g ∈ o, isAboard t g = isAboard s g) : AboardFirst t o := by
  obtain ⟨p, q, h0, h1, h2⟩ := h
  subst h0
  exact ⟨p, q, rfl, fun g hg => by rw [e g (by simp [hg])]; exact h1 g hg,
    fun g hg => by rw [e g (by simp [hg])]; exact h2 g hg⟩

theorem AboardFirst.filter {s : State} {o : List Handle} (h : AboardFirst s o) (f : Handle → Bool) :
    AboardFirst s (o.filter f) := by
  obtain ⟨p, q, h0, h1, h2⟩ := h
  subst h0
  exact ⟨p.filter f, q.filter f, List.filter_append .., fun g hg => h1 g (List.mem_filter.1 hg).1,
    fun g hg => h2 g (List.mem_filter.1 hg).1⟩

theorem AboardFirst.snoc {s : State} {o : List Handle} (h : AboardFirst s o) {x : Handle} (hx : isAboard s x = false) :
    AboardFirst s (o ++ [x]) := by
  obtain ⟨p, q, h0, h1, h2⟩ := h
  subst h0
  refine ⟨p, q ++ [x], by simp, h1, ?_⟩
  intro g hg
  rcases List.mem_append.1 hg with hg | hg
  · exact h2 g hg
  · rw [List.mem_singleton.1 hg]; exact hx

/-- List `b` has no repeats and differs from `a` at most at `h`, which it holds exactly where `P` holds. -/
structure DiffersAt (a b : List Handle) (h : Handle) (P : Prop) : Prop where
  other : ∀ g, g ≠ h → (g ∈ b ↔ g ∈ a)
  self : h ∈ b ↔ P
  nodup : b.Nodup

theorem DiffersAt.same {a : List Handle} {h : Handle} {P : Prop} (ha : a.Nodup) (hp : h ∈ a ↔ P) : DiffersAt a a h P :=
  ⟨fun _ _ => Iff.rfl, hp, ha⟩

theorem DiffersAt.filter {a : List Handle} {h : Handle} {P : Prop} (ha : a.Nodup) (hp : ¬ P) :
    DiffersAt a (a.filter (· != h)) h P :=
  ⟨fun g hg => by simp [hg], by simp [hp], ha.filter _⟩

theorem DiffersAt.snoc {a : List Handle} {h : Handle} {P : Prop} (ha : a.Nodup) (hn : h ∉ a) (hp : P) :
    DiffersAt a (a ++ [h]) h P :=
  ⟨fun g hg => by simp [hg], by simp [hp], by
    rw [List.nodup_append]
    exact ⟨ha, by simp, by intro x hx y hy; rw [List.mem_singleton.1 hy]; rintro rfl; exact hn hx⟩⟩

theorem DiffersAt.cons {a : List Handle} {h : Handle} {P : Prop} (ha : a.Nodup) (hn : h ∉ a) (hp : P) :
    DiffersAt a (h :: a) h P :=
  ⟨fun g hg => by simp [hg], by simp [hp], List.nodup_cons.2 ⟨hn, ha⟩⟩

/-- Agreement is kept where one record alone changes its state or lane and every list follows it. -/
theorem MapAgrees.of_one {s t : State} (m : MapAgrees s) (h : Handle)
    (hst : ∀ g, g ≠ h → (getRec t g).state = (getRec s g).state ∧ (getRec t g).lane = (getRec s g).lane)
    (hpl : isLive (getRec t h).state = true → (getRec t h).lane ≠ none)
    (hoc : ∀ l, DiffersAt (occupantsOf s l) (occupantsOf t l) h
      (isLive (getRec t h).state = true ∧ (getRec t h).lane = some l))
    (hord : ∀ l, AboardFirst t (occupantsOf t l))
    (h1 : DiffersAt s.offers t.offers h ((getRec t h).state = .offered))
    (h2 : DiffersAt s.reservations t.reservations h ((getRec t h).state = .reserved))
    (h3 : DiffersAt s.trials t.trials h ((getRec t h).state = .trial))
    (h4 : DiffersAt s.departures t.departures h ((getRec t h).state = .left)) : MapAgrees t := by
  constructor
  · intro l g
    by_cases hg : g = h
    · subst hg; exact (hoc l).self
    · rw [(hoc l).other g hg, (hst g hg).1, (hst g hg).2]; exact m.listed l g
  · intro g
    by_cases hg : g = h
    · subst hg; exact hpl
    · rw [(hst g hg).1, (hst g hg).2]; exact m.placed g
  · intro l; exact (hoc l).nodup
  · intro l; exact aboardFirst_iff.2 (hord l)
  · intro g
    by_cases hg : g = h
    · subst hg; exact h1.self
    · rw [h1.other g hg, (hst g hg).1]; exact m.offered g
  · intro g
    by_cases hg : g = h
    · subst hg; exact h2.self
    · rw [h2.other g hg, (hst g hg).1]; exact m.reserved g
  · intro g
    by_cases hg : g = h
    · subst hg; exact h3.self
    · rw [h3.other g hg, (hst g hg).1]; exact m.trial g
  · intro g
    by_cases hg : g = h
    · subst hg; exact h4.self
    · rw [h4.other g hg, (hst g hg).1]; exact m.left g
  · exact ⟨h1.nodup, h2.nodup, h3.nodup, h4.nodup⟩

/-- Agreement is kept where no record's state or lane and no list changes. -/
theorem MapAgrees.of_same {s t : State} (m : MapAgrees s)
    (hst : ∀ g, (getRec t g).state = (getRec s g).state ∧ (getRec t g).lane = (getRec s g).lane)
    (hoc : ∀ l, occupantsOf t l = occupantsOf s l)
    (h1 : t.offers = s.offers) (h2 : t.reservations = s.reservations) (h3 : t.trials = s.trials)
    (h4 : t.departures = s.departures) : MapAgrees t := by
  have hab : ∀ g, isAboard t g = isAboard s g := fun g => by unfold isAboard; rw [(hst g).1]
  constructor
  · intro l g; rw [hoc, (hst g).1, (hst g).2]; exact m.listed l g
  · intro g; rw [(hst g).1, (hst g).2]; exact m.placed g
  · intro l; rw [hoc]; exact m.once l
  · intro l; rw [hoc]; exact aboardFirst_iff.2 ((aboardFirst_iff.1 (m.order l)).congr (fun g _ => hab g))
  · intro g; rw [h1, (hst g).1]; exact m.offered g
  · intro g; rw [h2, (hst g).1]; exact m.reserved g
  · intro g; rw [h3, (hst g).1]; exact m.trial g
  · intro g; rw [h4, (hst g).1]; exact m.left g
  · rw [h1, h2, h3, h4]; exact m.distinct

theorem MapAgrees.aboardFirst {s : State} (m : MapAgrees s) (l : Lane) : AboardFirst s (occupantsOf s l) :=
  aboardFirst_iff.1 (m.order l)

theorem occupantsOf_of_slot {s t : State} {l : Lane} (h : slotOf t l = slotOf s l) : occupantsOf t l = occupantsOf s l := by
  unfold occupantsOf; rw [h]

theorem filter_ne_self {o : List Handle} {h : Handle} (hn : h ∉ o) : o.filter (· != h) = o := by
  rw [List.filter_eq_self]; intro g hg; simp; rintro rfl; exact hn hg

/-! ## Freeing -/

/-- Freeing a record that is listed where it says takes it off every list of the lanes. -/
theorem freeRec_occupants {s : State} (h : Handle)
    (hl : ∀ l, h ∈ occupantsOf s l → isLive (getRec s h).state = true ∧ (getRec s h).lane = some l) (l : Lane) :
    occupantsOf (freeRec s h) l = (occupantsOf s l).filter (· != h) := by
  have e : occupantsOf (freeRec s h) l = occupantsOf (if isLive (getRec s h).state then unlist s h else s) l := rfl
  rw [e]
  by_cases hv : isLive (getRec s h).state = true
  · rw [if_pos hv]
    cases hln : (getRec s h).lane with
    | none =>
      have : unlist s h = s := by unfold unlist; rw [hln]
      rw [this, filter_ne_self]; intro hm; have := (hl l hm).2; rw [hln] at this; cases this
    | some l0 =>
      have sp := unlist_spec s h l0 hln
      by_cases h0 : l = l0
      · subst h0; exact sp.2.1
      · rw [occupantsOf_of_slot (sp.2.2.1 l h0), filter_ne_self]
        intro hm
        have := (hl l hm).2
        rw [hln] at this
        cases this
        exact h0 rfl
  · rw [if_neg hv, filter_ne_self]; intro hm; exact hv (hl l hm).1

theorem freeRec_keep (s : State) (h g : Handle) (hg : g ≠ h) :
    (getRec (freeRec s h) g).state = (getRec s g).state ∧ (getRec (freeRec s h) g).lane = (getRec s g).lane
      ∧ (getRec (freeRec s h) g).desc = (getRec s g).desc := by
  obtain ⟨o, c, k, e⟩ := freeRec_eta s h g hg
  rw [e]; exact ⟨rfl, rfl, rfl⟩

theorem freeRec_departures (s : State) (h : Handle) : (freeRec s h).departures = s.departures.filter (· != h) := by
  unfold freeRec; dsimp only; split
  · rw [unlist_only]
  · rfl

/-- A handle taken off the offer list, the reservation list and the trial stack. -/
def offLists (s : State) (h : Handle) : State :=
  { s with
    offers := s.offers.filter (· != h), reservations := s.reservations.filter (· != h), trials := s.trials.filter (· != h) }

/-- Agreement is kept by freeing any record and taking it off its list. -/
theorem MapAgrees.free {s : State} (m : MapAgrees s) (h : Handle) : MapAgrees (freeRec (offLists s h) h) := by
  have hs : (getRec (freeRec (offLists s h) h) h) = freeRecord := freeRec_self _ _
  have hk : ∀ g, g ≠ h → _ := fun g hg => freeRec_keep (offLists s h) h g hg
  have ho : ∀ l, occupantsOf (freeRec (offLists s h) h) l = (occupantsOf s l).filter (· != h) :=
    fun l => freeRec_occupants (s := offLists s h) h (fun l hm => (m.listed l h).1 hm) l
  apply MapAgrees.of_one m h
  · intro g hg; exact ⟨(hk g hg).1, (hk g hg).2.1⟩
  · rw [hs]; intro hx; cases hx
  · intro l; rw [ho, hs]; exact DiffersAt.filter (m.once l) (by intro hx; cases hx.1)
  · intro l; rw [ho]
    refine ((MapAgrees.aboardFirst m l).filter _).congr ?_
    intro g hg
    have : g ≠ h := by simpa using (List.mem_filter.1 hg).2
    unfold isAboard; rw [(hk g this).1]; rfl
  · have : (freeRec (offLists s h) h).offers = s.offers.filter (· != h) := by rw [freeRec_only]; rfl
    rw [this, hs]; exact DiffersAt.filter m.distinct.1 (by intro hx; cases hx)
  · have : (freeRec (offLists s h) h).reservations = s.reservations.filter (· != h) := by rw [freeRec_only]; rfl
    rw [this, hs]; exact DiffersAt.filter m.distinct.2.1 (by intro hx; cases hx)
  · have : (freeRec (offLists s h) h).trials = s.trials.filter (· != h) := by rw [freeRec_only]; rfl
    rw [this, hs]; exact DiffersAt.filter m.distinct.2.2.1 (by intro hx; cases hx)
  · rw [freeRec_departures, hs]; exact DiffersAt.filter m.distinct.2.2.2 (by intro hx; cases hx)

/-- A record not in a state stands in none of that state's lists. -/
theorem MapAgrees.off_list {s : State} (m : MapAgrees s) {h : Handle} :
    ((getRec s h).state ≠ .offered → s.offers.filter (· != h) = s.offers)
    ∧ ((getRec s h).state ≠ .reserved → s.reservations.filter (· != h) = s.reservations)
    ∧ ((getRec s h).state ≠ .trial → s.trials.filter (· != h) = s.trials)
    ∧ ((getRec s h).state ≠ .left → s.departures.filter (· != h) = s.departures) :=
  ⟨fun e => filter_ne_self fun hm => e ((m.offered h).1 hm), fun e => filter_ne_self fun hm => e ((m.reserved h).1 hm),
   fun e => filter_ne_self fun hm => e ((m.trial h).1 hm), fun e => filter_ne_self fun hm => e ((m.left h).1 hm)⟩

theorem offLists_offer {s : State} (m : MapAgrees s) {h : Handle} (e : (getRec s h).state = .offered) :
    offLists s h = { s with offers := s.offers.filter (· != h) } := by
  unfold offLists; rw [m.off_list.2.1 (by rw [e]; decide), m.off_list.2.2.1 (by rw [e]; decide)]

theorem offLists_res {s : State} (m : MapAgrees s) {h : Handle} (e : (getRec s h).state = .reserved) :
    offLists s h = { s with reservations := s.reservations.filter (· != h) } := by
  unfold offLists; rw [m.off_list.1 (by rw [e]; decide), m.off_list.2.2.1 (by rw [e]; decide)]

theorem offLists_trial {s : State} (m : MapAgrees s) {h : Handle} (e : (getRec s h).state = .trial) :
    offLists s h = { s with trials := s.trials.filter (· != h) } := by
  unfold offLists; rw [m.off_list.1 (by rw [e]; decide), m.off_list.2.1 (by rw [e]; decide)]

theorem offLists_none {s : State} (m : MapAgrees s) {h : Handle}
    (e : (getRec s h).state = .aboard ∨ (getRec s h).state = .left ∨ (getRec s h).state = .free) :
    offLists s h = s := by
  unfold offLists
  rw [m.off_list.1 (by rcases e with e | e | e <;> rw [e] <;> decide),
    m.off_list.2.1 (by rcases e with e | e | e <;> rw [e] <;> decide),
    m.off_list.2.2.1 (by rcases e with e | e | e <;> rw [e] <;> decide)]

/-! ## The reservation list -/

/-- Joining adds the member and loses none. -/
theorem joinBehind_perm (s : State) (h d) (l : List Handle) : (joinBehind s h d l).Perm (h :: l) := by
  unfold joinBehind
  obtain ⟨x, hx⟩ := List.takeWhile_prefix (p := fun g => decide ((getRec s g).deadline.getD 0 ≤ d)) (l := l)
  generalize hy : l.takeWhile (fun g => decide ((getRec s g).deadline.getD 0 ≤ d)) = y at hx
  dsimp only
  subst hx
  rw [List.drop_left, List.append_assoc]
  exact List.perm_middle

theorem joinReservations_rec (s : State) (h : Handle) :
    getRec (joinReservations s h) h = { getRec s h with deadline := some (reservationTicks s) } := by
  unfold joinReservations; dsimp only
  show getRec (setRec s h _) h = _
  rw [getRec_setRec_self]

theorem joinReservations_other (s : State) {h x : Handle} (hx : x ≠ h) : getRec (joinReservations s h) x = getRec s x := by
  unfold joinReservations; dsimp only
  show getRec (setRec s h _) x = _
  rw [getRec_setRec_other _ _ hx]

theorem joinReservations_perm (s : State) (h : Handle) :
    (joinReservations s h).reservations.Perm (h :: s.reservations.filter (· != h)) := by
  unfold joinReservations; dsimp only; exact joinBehind_perm _ _ _ _

/-- Becoming RESERVED in place keeps the lane and the description. -/
theorem makeReserved_rec (s : State) (h : Handle) :
    (getRec (makeReserved s h) h).state = .reserved ∧ (getRec (makeReserved s h) h).lane = (getRec s h).lane
      ∧ (getRec (makeReserved s h) h).desc = (getRec s h).desc := by
  unfold makeReserved; rw [joinReservations_rec, getRec_setRec_self]; exact ⟨rfl, rfl, rfl⟩

theorem makeReserved_other (s : State) {h x : Handle} (hx : x ≠ h) : getRec (makeReserved s h) x = getRec s x := by
  unfold makeReserved; rw [joinReservations_other _ hx, getRec_setRec_other _ _ hx]

/-! ## Which reservation lapses, and when a late CONFIRM reserves -/

/-- The reservation that lapses next is a member of the list that has run out, and none ahead of it has (R97). -/
theorem nextLapse_some {s : State} {h : Handle} (e : nextLapse s = some h) :
    reservationExpired s h = true
      ∧ ∃ a b, s.reservations = a ++ h :: b ∧ ∀ g ∈ a, (!reservationExpired s g) = true :=
  List.find?_eq_some_iff_append.1 e

/-- A late CONFIRM reserves exactly where its own description is good and not above 600 cm, the conditions of R93 hold and
general allocation is available. -/
theorem lateUnit_eq_some {s : State} {c : Confirm} {l : Lane} {u : UnitDesc} :
    lateUnit s c l = some u ↔ descExactUnit c.desc = some u ∧ lateEligible s u l = true ∧ generalAvailable s = true := by
  unfold lateUnit
  cases descExactUnit c.desc with
  | none => simp
  | some v =>
    dsimp only
    split <;> rename_i h
    · rw [Bool.and_eq_true] at h
      exact ⟨fun e => by cases e; exact ⟨rfl, h⟩, fun e => e.1⟩
    · refine ⟨fun e => (by cases e), fun e => ?_⟩
      cases e.1
      exact absurd (by rw [e.2.1, e.2.2]; rfl) h

/-! ## Records freed one after another -/

/-- Every listed record is live and stands in the lane it names. -/
def ListedAtHome (s : State) : Prop :=
  ∀ l g, g ∈ occupantsOf s l → isLive (getRec s g).state = true ∧ (getRec s g).lane = some l

theorem MapAgrees.listedAtHome {s : State} (m : MapAgrees s) : ListedAtHome s := fun l g => (m.listed l g).1

/-- Freeing one record changes no record that no lane lists. -/
theorem freeRec_offList (s : State) (h g : Handle) (hg : g ≠ h) (hn : ∀ l, g ∉ occupantsOf s l) :
    getRec (freeRec s h) g = getRec s g := by
  unfold freeRec; dsimp only
  show getRec (setRec _ h freeRecord) g = _
  rw [getRec_setRec_other _ _ hg]; split
  · cases hl : (getRec s h).lane with
    | none => unfold unlist; rw [hl]
    | some l => exact (unlist_spec s h l hl).2.2.2.2.1 g hg (hn l)
  · rfl

theorem ListedAtHome.free {s : State} (m : ListedAtHome s) (h : Handle) : ListedAtHome (freeRec s h) := by
  intro l g hm
  rw [freeRec_occupants h (fun l hx => m l h hx)] at hm
  have hg : g ≠ h := by simpa using (List.mem_filter.1 hm).2
  have k := freeRec_keep s h g hg
  rw [k.1, k.2.1]
  exact m l g (List.mem_filter.1 hm).1

/-- Freed records are FREE with every field gone, and in no lane's list (R23, R42). -/
theorem freeAll_blank (hs : List Handle) : ∀ (s : State), ListedAtHome s →
    ∀ g, (g ∈ hs ∨ getRec s g = freeRecord ∧ ∀ l, g ∉ occupantsOf s l) →
      getRec (freeAll hs s) g = freeRecord ∧ ∀ l, g ∉ occupantsOf (freeAll hs s) l := by
  induction hs with
  | nil => intro s _ g hg; exact hg.resolve_left List.not_mem_nil
  | cons h t ih =>
    intro s m g hg
    refine ih (freeRec s h) (m.free h) g ?_
    by_cases e : g = h
    · subst e
      exact .inr ⟨freeRec_self s g, fun l hm => by
        rw [freeRec_occupants g (fun l hx => m l g hx)] at hm; simp at hm⟩
    · rcases hg with hg | ⟨hr, hn⟩
      · exact .inl ((List.mem_cons.1 hg).resolve_left e)
      · exact .inr ⟨(freeRec_offList s h g e hn).trans hr, fun l hm => by
          rw [freeRec_occupants h (fun l hx => m l h hx)] at hm; exact hn l (List.mem_filter.1 hm).1⟩

end Sys2Proof.Machine
end

