-- ==== Sys2Proof/Laws/Packing.lean ====
section
/-! SUPPORT. What packing leaves of a lane (R32): what it reads of a record, the pending part packed by compaction and by
placing ABOARD, and that `PendingPacked` and `ReservationsInOrder` read a few fields alone. -/

namespace Sys2Proof.Machine

/-- All that packing reads of a record. -/
def packKey (r : UnitRec) : Bool × Option Nat × UnitKind × Nat := (r.state == .aboard, r.offset, recKind r, recLength r)

theorem recAft_congr {r r' : UnitRec} (h : packKey r' = packKey r) : recAft r' = recAft r := by
  unfold packKey at h; simp only [Prod.mk.injEq] at h; unfold recAft recOffset; rw [h.2.1, h.2.2.2]

theorem isAboard_congr {s t : State} {g : Handle} (h : packKey (getRec t g) = packKey (getRec s g)) :
    isAboard t g = isAboard s g := congrArg Prod.fst h

theorem packedBehind_congr {s t : State} (hg : t.gaps = s.gaps) : ∀ (hs : List Handle) (aft : Option Nat),
    (∀ g ∈ hs, packKey (getRec t g) = packKey (getRec s g)) → packedBehind t aft hs = packedBehind s aft hs := by
  intro hs
  induction hs with
  | nil => intro _ _; rfl
  | cons h t ih =>
    intro aft hh
    have h0 := hh h List.mem_cons_self
    unfold packedBehind
    rw [recAft_congr h0, ih _ (fun g hg => hh g (List.mem_cons_of_mem _ hg))]
    unfold packKey at h0; simp only [Prod.mk.injEq] at h0
    unfold offsetBehind; rw [hg, h0.2.1, h0.2.2.1]

theorem aftOf_congr {s t : State} {o : List Handle} (h : ∀ g ∈ o, packKey (getRec t g) = packKey (getRec s g)) :
    aftOf t o = aftOf s o := by
  unfold aftOf
  cases hl : o.getLast? with
  | none => rfl
  | some g => simp only [Option.map_some]; rw [recAft_congr (h g (List.mem_of_mem_getLast? hl))]

/-- Whether every pending part stands packed depends on the gaps, the occupant lists and what packing reads of records. -/
theorem pendingPacked_congr {s t : State} (hg : t.gaps = s.gaps) (ho : ∀ l, occupantsOf t l = occupantsOf s l)
    (hk : ∀ g, packKey (getRec t g) = packKey (getRec s g)) (p : PendingPacked s) : PendingPacked t := by
  intro l
  obtain ⟨a, b⟩ := filter_congr_aboard (s := s) (t := t) (o := occupantsOf s l) fun g _ => isAboard_congr (hk g)
  rw [ho, a, b, aftOf_congr (s := s) fun g _ => hk g, packedBehind_congr hg _ _ fun g _ => hk g]
  exact p l

/-- Whether the reservation list stands in order of deadline depends on that list and the deadlines alone. -/
theorem reservationsInOrder_congr {s t : State} (hr : t.reservations = s.reservations)
    (hd : ∀ g, (getRec t g).deadline = (getRec s g).deadline) (p : ReservationsInOrder s) : ReservationsInOrder t := by
  unfold ReservationsInOrder ticksLeft at p ⊢
  rw [hr]
  exact p.imp fun h => by rw [hd, hd]; exact h

/-- The two parts of a list whose ABOARD occupants stand ahead of the others. -/
theorem parts_of_append {s : State} {o p q : List Handle} (h : o = p ++ q) (h1 : ∀ g ∈ p, isAboard s g = true)
    (h2 : ∀ g ∈ q, isAboard s g = false) : aboardPart s o = p ∧ pendingPart s o = q := by
  subst h
  unfold aboardPart pendingPart
  rw [List.filter_append, List.filter_append, List.filter_eq_self.2 h1,
    List.filter_eq_nil_iff.2 (fun g hg => by simp [h2 g hg]), List.filter_eq_nil_iff.2 (fun g hg => by simp [h1 g hg]),
    List.filter_eq_self.2 (fun g hg => by simp [h2 g hg])]
  simp

/-- A record that packing moves has its centre arm computed anew and CHANGED set (R31, R37). -/
theorem packFrom_moved (a : Int) (hs : List Handle) : ∀ (aft : Option Nat) (s : State), hs.Nodup → ∀ g,
    (getRec (packFrom a aft hs s) g).offset ≠ (getRec s g).offset →
      (getRec (packFrom a aft hs s) g).changed = true ∧ ∃ o : Nat, (getRec (packFrom a aft hs s) g).offset = some o
        ∧ (getRec (packFrom a aft hs s) g).centre = some (centreArm a o (recLength (getRec s g))) := by
  induction hs with
  | nil => intro aft s _ g h; exact absurd rfl h
  | cons h t ih =>
    intro aft s hn g
    rw [List.nodup_cons] at hn
    obtain ⟨r, hr⟩ : ∃ r, r = reoffset a (getRec s h) (offsetBehind s aft (recKind (getRec s h))) := ⟨_, rfl⟩
    have e : packFrom a aft (h :: t) s = packFrom a (some (recAft r)) t (setRec s h r) := by rw [hr]; rfl
    rw [e]
    by_cases hg : g = h
    · subst hg
      rw [(packFrom_spec a t _ _ hn.2).2.1 g hn.1, getRec_setRec_self, hr]
      intro hne
      have hx : ¬ (getRec s g).offset = some (offsetBehind s aft (recKind (getRec s g))) := by
        intro hx; rw [reoffset_offset] at hne; exact hne hx.symm
      unfold reoffset; rw [if_neg hx]
      exact ⟨rfl, _, rfl, rfl⟩
    · have := ih (some (recAft r)) (setRec s h r) hn.2 g
      rw [getRec_setRec_other _ _ hg] at this
      exact this

/-- Compaction leaves the pending part of its lane packed behind the ABOARD part (R32). -/
theorem compact_packs {s : State} {l : Lane} (nd : (occupantsOf s l).Nodup) :
    packedBehind (compact s l) (aftOf (compact s l) (aboardPart (compact s l) (occupantsOf (compact s l) l)))
      (pendingPart (compact s l) (occupantsOf (compact s l) l)) = true := by
  have p := packFrom_spec (stopArmOf s l) (pendingPart s (occupantsOf s l)) (aftOf s (aboardPart s (occupantsOf s l))) s
    (nd.filter _)
  obtain ⟨a, b⟩ := filter_congr_aboard (s := s) (t := compact s l) (o := occupantsOf s l) fun g _ => by
    unfold isAboard; obtain ⟨o, c, k, e⟩ := compact_eta s l g; rw [e]
  have same : aftOf (compact s l) (aboardPart s (occupantsOf s l)) = aftOf s (aboardPart s (occupantsOf s l)) :=
    aftOf_congr fun g hg => by rw [compact_other (Or.inr (List.mem_filter.1 hg).2)]
  rw [compact_occupantsOf, a, b, same]
  exact p.1

/-- Placing a record ABOARD packs the pending part behind it: a record changes in offset, centre arm and CHANGED alone, and
only where its offset does (R32, R40 step 6, R41 step 4). -/
theorem placeAboard_packs (s : State) (h : Handle) (l : Lane) (hn : h ∉ occupantsOf s l) (hx : (slotOf s l).isSome = true) :
    let t := placeAboard s h l
    (∀ g, g ≠ h → ∃ o c k, getRec t g = { getRec s g with offset := o, centre := c, changed := k })
    ∧ ((occupantsOf s l).Nodup →
      packedBehind t (aftOf t (aboardPart s (occupantsOf s l) ++ [h])) (pendingPart s (occupantsOf s l)) = true
      ∧ (∀ g, g ≠ h → (getRec t g).offset = (getRec s g).offset → getRec t g = getRec s g)
      ∧ (∀ g, g ≠ h → (getRec t g).offset ≠ (getRec s g).offset → (getRec t g).changed = true ∧ ∃ o : Nat,
          (getRec t g).offset = some o
            ∧ (getRec t g).centre = some (centreArm (stopArmOf s l) o (recLength (getRec s g))))) := by
  dsimp only
  set r1 := aboardRecord (getRec s h) l (offsetBehind s (aftOf s (aboardPart s (occupantsOf s l))) (recKind (getRec s h)))
    (stopArmOf s l) s.stowClock with hr1
  set s2 := setOccupants (setRec s h r1) l (aboardPart s (occupantsOf s l) ++ [h] ++ pendingPart s (occupantsOf s l)) with hs2
  have e : placeAboard s h l = compact s2 l := rfl
  have ho : occupantsOf s2 l = aboardPart s (occupantsOf s l) ++ [h] ++ pendingPart s (occupantsOf s l) :=
    occupantsOf_setOccupants _ _ hx
  have hr : ∀ g, g ≠ h → getRec s2 g = getRec s g := fun g hg => by rw [hs2, getRec_setOccupants, getRec_setRec_other _ _ hg]
  have hself : getRec s2 h = r1 := by rw [hs2, getRec_setOccupants, getRec_setRec_self]
  refine ⟨fun g hg => ?_, fun nd => ?_⟩
  · obtain ⟨o, c, k, x⟩ := compact_eta s2 l g
    exact ⟨o, c, k, by rw [e, x, hr g hg]⟩
  have ab : ∀ g ∈ aboardPart s (occupantsOf s l) ++ [h], isAboard s2 g = true := by
    intro g hg
    rcases List.mem_append.1 hg with hg | hg
    · obtain ⟨a, b⟩ := List.mem_filter.1 hg
      unfold isAboard; rw [hr g (by rintro rfl; exact hn a)]; exact b
    · rw [List.mem_singleton.1 hg]; unfold isAboard; rw [hself]; rfl
  have pend : ∀ g ∈ pendingPart s (occupantsOf s l), isAboard s2 g = false := by
    intro g hg
    obtain ⟨a, b⟩ := List.mem_filter.1 hg
    unfold isAboard at b ⊢; rw [hr g (by rintro rfl; exact hn a)]; simpa using b
  obtain ⟨pa, pb⟩ := parts_of_append ho ab pend
  have hnd : (pendingPart s2 (occupantsOf s2 l)).Nodup := by rw [pb]; exact nd.filter _
  obtain ⟨q1, -, -, q4⟩ := packFrom_spec (stopArmOf s2 l) _ (aftOf s2 (aboardPart s2 (occupantsOf s2 l))) s2 hnd
  have q5 := packFrom_moved (stopArmOf s2 l) _ (aftOf s2 (aboardPart s2 (occupantsOf s2 l))) s2 hnd
  change packedBehind (compact s2 l) _ _ = true at q1
  change ∀ g, (getRec (compact s2 l) g).offset = _ → getRec (compact s2 l) g = getRec s2 g at q4
  change ∀ g, (getRec (compact s2 l) g).offset ≠ _ → (getRec (compact s2 l) g).changed = true ∧ _ at q5
  have hstop : stopArmOf s2 l = stopArmOf s l := by unfold stopArmOf; rw [hs2, entryOf_setOccupants]; rfl
  rw [e]
  refine ⟨?_, ?_, ?_⟩
  · rw [pb, pa] at q1
    rw [aftOf_congr (s := s2) (t := compact s2 l) fun g hg => by rw [compact_other (Or.inr (ab g hg))]]
    exact q1
  · intro g hg hh; rw [← hr g hg] at hh ⊢; exact q4 g hh
  · intro g hg hh; rw [← hr g hg] at hh ⊢; rw [← hstop]; exact q5 g hh

end Sys2Proof.Machine
end

