-- ==== Sys2Proof/Tests/Slice0.lean ====
section
/-! SUPPORT. Tests: the manual's worked sequences as single steps on small states, an ill-formed term for each check of
WellFormed, and for each statement with hypotheses a state and operands that meet them (`test_witness_<statement>`). -/

namespace Sys2Proof.Tests

open Sys2Proof.Machine

/-! ## Small states -/

/-- What a command leaves. -/
def after (c : Instr) (s : State) : State :=
  match exec c s with
  | .next t => t
  | .fault _ => s
  | .refused _ => s

/-- A lane of deck 3 with F = +420, U = 1400, clearance 450. -/
def lane (arm : Int) (cars : Bool) : LaneEntry :=
  { deck := 3, arm := arm, stopArm := 420, usable := 1400, clearance := 450, plugs := 1
    kinds := { car := cars, van := cars, truck := !cars, artic := !cars, trailer := !cars, project := false }
    port := none, starboard := none, admin := .opened, laneMass := 65535, unitMass := 1200 }

/-- A slot with these occupants. -/
def slot (e : LaneEntry) (o : List Handle) : LaneSlot := { entry := some e, occupants := o, suspect := false }

/-- A unit, not a reefer and without a hazard class. -/
def unit (mark : Mark) (kind : UnitKind) (length mass rank : Nat) : UnitDesc :=
  { mark := mark, kind := kind, length := length, mass := mass, height := 400, rank := rank, hazard := none, reefer := false }

/-- A record of mass 5 that stands ABOARD with its aft end at `aft`. -/
def stander (mark : Mark) (l : Lane) (aft rank : Nat) : UnitRec :=
  { freeRecord with
    state := .aboard, desc := some (unit mark .truck 100 5 rank), lane := some l, offset := some (aft - 100)
    centre := some 0, aboardTime := some 0 }

/-- The engine of worked case A (section 3.8 of chapter 3): the fills and tail ranks of Table 3.3, H_before −30,000 and
T_before +100,000 (the standers of mass 5 add 5 × (60 − 60 + 20 + 60) = 400 of heel). -/
def caseA : State :=
  { State.reset with
    voyage := .opened, rangeBase := 12, decks := [(3, 100000)]
    lanes := [slot (lane 60 false) [0], slot (lane (-60) false) [1], slot (lane 20 false) [], slot (lane (-20) false) [],
      slot (lane 20 false) [2], slot (lane 60 true) [3]]
    sections := [(0, { hoist := [17], covered := [15], reduced := 190, travel := 120, state := .deployed, timer := none })]
    limits := { hLim := 100000, tMin := -400000, tMax := 400000 }
    records := [(0, stander 1 12 980 3), (1, stander 2 13 1180 2), (2, stander 3 16 700 1), (3, stander 4 17 1300 2)]
    heelOffset := -30400, trimOffset := 100000 }

/-- The ARTIC of case A: length 165, mass 382, height 400, rank 2, mark 9. -/
def artic : Desc := .long 3 false 1 9 165 382 400 0

/-- The same engine in another role. -/
def inRole (r : Role) (s : State) : State := { s with role := r }

/-- The state with a frame first in line. -/
def taking (p : InPort) (f : Frame) (s : State) : State := setRxQueue s [f] p

/-- A request head for position 0. -/
def here : ReqHead := { target := 0, tag := 7 }

/-- The state with a request for this engine first in line. -/
def asked (b : ReqBody) (s : State) : State := taking .fwd (.request here b) s

/-- The REPLY to the request of `asked`. -/
def reply (code : ReplyCode) (body : ReplyBody) : Frame := .reply 7 0 code body

/-- A check-in of the ARTIC as the terminal sends it. -/
def checkIn : CheckIn := { desc := artic, sequence := 0, retry := { set := false, count := 0, heldSince := 0 }, bid := .none }

/-- The CONFIRM of the ARTIC's check-in, sequence 561. -/
def confirm (r : ConfirmResult) : Confirm :=
  { desc := artic, sequence := 561, retry := { set := false, count := 0, heldSince := 0 }, result := r }

/-- Case A with the ARTIC OFFERED in lane 12 under sequence 561, handle 4. -/
def offeredA : State := placeOffer caseA (unit 9 .artic 165 382 2) 561 12

/-- Case A with the ARTIC RESERVED in lane 12, handle 4. -/
def reservedA : State := (confirmStep offeredA (confirm (.winner 0 12 985))).2

/-- Case A with the ARTIC on trial in lane 12, handle 4. -/
def trialA : State := after (.trial here artic) (asked (.trial artic) caseA)

/-- A lane with one unit reserved at its tail. -/
def reserve (h : Handle) (u : UnitDesc) (s : State) : State :=
  makeReserved (listAtTail (setRec s h (newRecord u .offered)) h 12) h

/-- Section 2.9 of chapter 2 after steps 1 to 3: U1, U2 and U3 reserved in lane 12, handles 7, 8 and 9. -/
def loading : State :=
  reserve 9 { unit 13 .trailer 136 300 2 with reefer := true }
    (reserve 8 (unit 12 .artic 165 382 2)
      (reserve 7 (unit 11 .truck 120 250 3)
        { State.reset with
          voyage := .opened, rangeBase := 12, lanes := [slot (lane 60 false) []], decks := [(3, 100000)]
          limits := { hLim := 100000, tMin := -400000, tMax := 400000 } }))

/-- The same after step 4: U2 has come aboard first. -/
def loading4 : State := after (.tallyOn 12 12 none false) (taking .fwd (.tallyOn 12 12 none false) loading)

/-- Offsets and centre arms of some records. -/
def places (s : State) (hs : List Handle) : List (Option Nat × Option Int) :=
  hs.map fun h => ((getRec s h).offset, (getRec s h).centre)

/-- An exception record of sequence number n. -/
def exc (n : Seq) : ExcRecord :=
  { sequence := n, clock := 0, kind := .forced, mark := some 1, lane := some 12, second := none, detail := none }

/-! ## The manual's worked figures -/

/-- Table 2.7: offsets 0, 125, 295 and centre arms 360, 212, 57; projected heel 55,920 and trim 188,084. -/
theorem test_loading_lists_at_tail :
    places loading [7, 8, 9] = [(some 0, some 360), (some 125, some 212), (some 295, some 57)]
      ∧ projHeel loading = 55920 ∧ projTrim loading = 188084 ∧ commTrim loading = 0 ∧ plugsUsed loading 12 = 1 := by
  decide

/-- Table 2.8: U2 promoted to the front at 0, U1 packed to 170, U3 stays; trim 193,334, committed 128,734. -/
theorem test_tally_on_promotes_and_packs :
    occupantsOf loading4 12 = [8, 7, 9]
      ∧ places loading4 [8, 7, 9] = [(some 0, some 337), (some 170, some 190), (some 295, some 57)]
      ∧ projTrim loading4 = 193334 ∧ commTrim loading4 = 128734 ∧ commHeel loading4 = 22920 := by
  decide

/-- Step 5: U1 behind U2 logs ORDER with U2's mark as the second mark. -/
theorem test_tally_on_logs_order :
    (after (.tallyOn 11 12 none false) (taking .fwd (.tallyOn 11 12 none false) loading4)).log
      = [{ sequence := 0, clock := 0, kind := .order, mark := some 11, lane := some 12, second := some 12, detail := none }]
    := by
  decide

/-- Step 7's departure keeps the lane field, gives EXIT_ORDER only past ABOARD occupants, and packs the rest. -/
theorem test_tally_off_leaves :
    (let t := after (.tallyOff 12 12 false) (taking .fwd (.tallyOff 12 12 false) loading4)
     (getRec t 8).state = .left ∧ (getRec t 8).lane = some 12 ∧ t.departures = [8] ∧ t.log = []
      ∧ places t [7, 9] = [(some 0, some 360), (some 125, some 227)]) := by
  decide

/-- Table 3.6, no lane: best lane 12, score 354; six candidates, three eligible. -/
theorem test_evaluate_best_of_case_a :
    (after (.evaluate here artic none) (asked (.evaluate artic none) caseA)).origRet
      = [reply .ok (.evalBest 6 3 12 354 985 1150 (-7080) (-147536))] := by
  decide

/-- Table 3.6, lane 17: KIND and LENGTH fail; lane 15: HEIGHT alone. -/
theorem test_evaluate_lanes_of_case_a :
    (after (.evaluate here artic (some 17)) (asked (.evaluate artic (some 17)) caseA)).origRet
        = [reply .ok (.evalLane 17 [.kind, .length] 1305 1470 (-7080) (-269776) none)]
      ∧ (after (.evaluate here artic (some 15)) (asked (.evaluate artic (some 15)) caseA)).origRet
        = [reply .ok (.evalLane 15 [.height] 0 165 (-37640) 228734 none)] := by
  decide

/-- Table 4.6, E1: score 354 beats 412, lane 12, offset 985; the offer moves heel and trim. -/
theorem test_bid_step_of_worked_check_in :
    (bidStep caseA { checkIn with sequence := 561, bid := .bid 412 1 5 640 }).1.bid = .bid 354 0 12 985
      ∧ offeredA.offers = [4] ∧ projHeel offeredA = -7080 ∧ projTrim offeredA = -147536
      ∧ (getRec offeredA 4).centre = some (-648) := by
  decide

/-- Table 4.6, E2: an equal score does not bid. -/
theorem test_bid_step_tie_stays :
    (bidStep caseA { checkIn with bid := .bid 354 1 12 985 }).1.bid = .bid 354 1 12 985 := by
  decide

/-- Table 4.7: the winner's offer becomes RESERVED in place, 600 s giving 6000 ticks. -/
theorem test_confirm_converts :
    (getRec reservedA 4).state = .reserved ∧ (getRec reservedA 4).deadline = some 6000 ∧ reservedA.offers = []
      ∧ (getRec reservedA 4).offset = some 985 := by
  decide

/-- Table 4.9: a late CONFIRM that TRIM fails behind N's offer is REVOKED. -/
theorem test_late_confirm_revokes :
    (let s := placeOffer caseA (unit 10 .artic 165 382 2) 562 12
     (confirmStep s (confirm (.winner 0 12 985))).1.result = .none .revoked
      ∧ (confirmStep s (confirm (.winner 0 12 985))).2.origFwd = [.revoke 9 12 561 .revoked]) := by
  decide

/-- R141: 120 s gives 1200 ticks. -/
theorem test_deploy_timer :
    (let s := { asked (.deploy 0) caseA with
                sections := [(0, { hoist := [17], covered := [15], reduced := 190, travel := 120, state := .stowed
                                   timer := none })] }
     (after (.deploy here 0) s).sections.map (fun e => e.2.timer) = [some 1200]
      ∧ (after (.deploy here 0) s).origFwd = [.hoistPermit 0 0 .lower 120]) := by
  decide

/-- Table 10.5: 32 records and LOG_FULL; ACK NOTICES of LOGGED shows armed set, and ATTENTION follows. -/
theorem test_ack_notices_of_full_log :
    (let n : NoticeSet := { noNotices with logged := true, logFull := true }
     let s := { asked (.ackNotices { noNotices with logged := true }) caseA with
                notices := n, enables := n, armed := false, log := List.replicate 32 (exc 0), nextExc := 232 }
     let left : NoticeSet := { noNotices with logFull := true }
     (after (.ackNotices here { noNotices with logged := true }) s).origRet
      = [reply .ok (.notices left n true), .attention 0 left 32 232]
      ∧ (after (.ackNotices here { noNotices with logged := true }) s).armed = false) := by
  decide

/-- Table 10.5: DRAIN LOG 3 gives the three oldest. -/
theorem test_drain_log_gives_oldest :
    (let s := { asked (.drainLog 3) caseA with log := [exc 200, exc 201, exc 202, exc 203], nextExc := 204 }
     (after (.drainLog here 3) s).origRet = [reply .ok (.drained [exc 200, exc 201, exc 202] 1 204)]
      ∧ (after (.drainLog here 3) s).log = [exc 203]) := by
  decide

/-- R98: re-presentation restarts the deadline and reports DUPLICATE. -/
theorem test_bid_step_restarts_reservation :
    (let s := setRec reservedA 4 { getRec reservedA 4 with deadline := some 17 }
     (bidStep s checkIn).1.bid = .duplicate 0 12 985 (some .reserved)
      ∧ (getRec (bidStep s checkIn).2 4).deadline = some 6000) := by
  decide

/-- R99: a lapse frees the record, sends LAPSE and sets LAPSED. -/
theorem test_reservation_lapse :
    (let s := setRec reservedA 4 { getRec reservedA 4 with deadline := some 0 }
     let t := after (.reservationLapse 4) s
     getRec t 4 = freeRecord ∧ t.origFwd = [.lapse 9 12 (some 561) .timeout] ∧ t.notices.lapsed = true
      ∧ projHeel t = -30000) := by
  decide

/-- R97: with two reservations run out, the first of the list lapses first, and the other's command waits. -/
theorem test_reservation_lapse_in_list_order :
    (let out := fun (s : State) h => setRec s h { getRec s h with deadline := some 0 }
     let s := out (out loading 8) 9
     after (.reservationLapse 9) s = s ∧ (after (.reservationLapse 8) s).reservations = [7, 9]) := by
  decide

/-- R2: a deck number outside 1..8 is BAD_FIELD in REMOVE mode too; an absent deck 4 is NO_SUCH. -/
theorem test_remove_deck_range :
    (after (.writeDeckRemove here 9) (asked (.removeDeck 9) caseA)).origRet = [reply .badField .empty]
      ∧ (after (.writeDeckRemove here 0) (asked (.removeDeck 0) caseA)).origRet = [reply .badField .empty]
      ∧ (after (.writeDeckRemove here 4) (asked (.removeDeck 4) caseA)).origRet = [reply .noSuch .empty] := by
  decide

/-- R69, R93: a late CONFIRM whose own height is 601 fails HEIGHT and is revoked, in a lane of clearance 600 too. -/
theorem test_late_confirm_too_tall :
    (let c := { confirm (.winner 0 12 0) with desc := .long 3 false 1 9 165 382 601 0 }
     let s := { caseA with lanes := [slot { lane 60 false with clearance := 600 } []] }
     (confirmStep s c).1.result = .none .revoked
      ∧ (confirmStep s { c with desc := .long 3 false 1 9 165 382 600 0 }).1.result = .winner 0 12 0) := by
  decide

/-- R112: TRIAL places at the tail of the best lane; R113: UNDO frees it. -/
theorem test_trial_and_undo :
    trialA.origRet = [reply .ok (.trialPlaced 4 12 985 354 1)]
      ∧ getRec (after (.undo here) (asked .undo { trialA with origRet := [] })) 4 = freeRecord := by
  decide

/-- R161: the stow clock runs from 4,294,967,295 to 0. -/
theorem test_stow_clock_wraps :
    (after .stowClockTick { State.reset with stowClock := 0xFFFFFFFF#32 }).stowClock = 0#32 := by
  decide

/-! ## The link -/

/-- The frame check is the usual one of its polynomial and initial value: 29B1 for the digits 1 to 9. -/
theorem test_frame_check : frameCheck [0x31, 0x32, 0x33, 0x34, 0x35, 0x36, 0x37, 0x38, 0x39] = 0x29B1#16 := by decide +kernel

/-- R184: a good frame passes whatever stands before it, one flipped bit fails, 7 bytes fail, and stray bytes are dropped. -/
theorem test_arrival :
    testArrival ([1, 2] ++ frameBytes 0x10 [1, 0x7E, 3]) = .passes
      ∧ testArrival ((frameBytes 0x10 [1, 2, 3]).set 3 0) = .fails
      ∧ testArrival [0x7E, 0x10, 7, 1, 2, 3, 4] = .fails ∧ testArrival [0, 1, 2] = .outside := by
  decide +kernel

/-- Table 11.3: kind ARTIC, rank 2, mark 9, length 165, mass 382 = 017E, height 400 = 0190, no class. -/
theorem test_description_bytes : descBytes artic = [0xB1, 0, 0, 0, 0, 9, 165, 0x01, 0x7E, 0x01, 0x90, 0] := by decide

/-! ## Ill-formed terms (WellFormed) -/

theorem test_wf_handle : (Instr.offerDeadline 512).wf = false ∧ (Instr.offerDeadline 511).wf = true := by decide
theorem test_wf_section_id : (Instr.travelTimerExpiry 6).wf = false ∧ (Instr.travelTimerExpiry 5).wf = true := by decide
theorem test_wf_wire : (Instr.frameArrival .fwd (List.replicate 256 0) .abort).wf = false := by decide +kernel
theorem test_wf_bid :
    (Instr.checkIn { checkIn with bid := .bid 65536 0 0 0 }).wf = false
      ∧ (Instr.checkIn { checkIn with bid := .bid 0 0 256 0 }).wf = false
      ∧ (Instr.checkIn { checkIn with bid := .bid 0 0 0 65536 }).wf = false
      ∧ (Instr.checkIn { checkIn with bid := .duplicate 0 256 0 (some .aboard) }).wf = false
      ∧ (Instr.checkIn { checkIn with bid := .duplicate 0 0 65536 (some .aboard) }).wf = false := by
  decide
theorem test_wf_retry :
    (Instr.checkIn { checkIn with retry := { set := true, count := 16, heldSince := 0 } }).wf = false
      ∧ (Instr.checkIn { checkIn with retry := { set := true, count := 15, heldSince := 0 } }).wf = true := by
  decide
theorem test_wf_result :
    (Instr.confirm (confirm (.winner 0 256 0))).wf = false ∧ (Instr.confirm (confirm (.winner 0 0 65536))).wf = false
      ∧ (Instr.confirm (confirm (.duplicate 0 256 (some .aboard)))).wf = false := by
  decide
theorem test_wf_tally_lane :
    (Instr.tallyOn 1 256 none false).wf = false ∧ (Instr.tallyOff 1 256 false).wf = false := by
  decide
theorem test_wf_id_byte :
    (Instr.hoistStatusDown 0 256).wf = false ∧ (Instr.hoistStatusUp 0 256).wf = false ∧ (Instr.deploy here 256).wf = false
      ∧ (Instr.stow here 256).wf = false := by
  decide
theorem test_wf_range_count : (Instr.writeRange here 0 0).wf = false := by decide
theorem test_wf_section_lanes :
    (Instr.writeSection here 0 [256] [1] 200 none).wf = false ∧ (Instr.writeSection here 0 [1] [256] 200 none).wf = false := by
  decide
theorem test_wf_triples :
    (Instr.writeSegregation here []).wf = false
      ∧ (Instr.writeSegregation here (List.replicate 17 (1, 1, 1))).wf = false := by
  decide

/-! ## States and operands that meet the hypotheses of the statements -/

/-- A section of case A in a given state. -/
def withSection (st : HoistState) (timer : Option Nat) (s : State) : State :=
  { s with sections := [(0, { hoist := [17], covered := [15], reduced := 190, travel := 120, state := st, timer := timer })] }

/-- `n` live records, one for each of the lowest handles. -/
def crowded (n : Nat) (s : State) : State := { s with records := (List.range n).map fun h => (h, stander 1 12 980 3) }

/-- A full lane: 40 occupants. -/
def fullLane : State := { caseA with lanes := [slot (lane 60 false) (List.replicate 40 0)] }

/-- A held unit. -/
def held : HoldEntry := { desc := artic, reason := .noLane, heldSince := 5, retries := 0 }

/-- A token of serial 1. -/
def token : Token := { serial := 1, criterion := .aboard, count := 1 }

theorem test_witness_StepTakesTheFront :
    ({ caseA with pending := [.abort, .identify] } : State).pending = .abort :: [.identify] ∧ caseA.pending = [] := by decide

theorem test_witness_EveryCommandAnswersInPlace :
    exec .resetAssert caseA = .next { caseA with inReset := true } ∧ ∀ r p, Instr.resetAssert ≠ .powerOn r p :=
  ⟨rfl, fun _ _ h => Instr.noConfusion h⟩

theorem test_witness_PowerOnContents : caseA.pending = [] ∧ exec (.powerOn 0 0) caseA = .next State.reset := ⟨rfl, rfl⟩

theorem test_witness_ResetHoldsTheEngine :
    ({ caseA with inReset := true } : State).inReset = true ∧ Instr.abort ≠ .resetAssert
      ∧ ∀ r p, Instr.abort ≠ .powerOn r p :=
  ⟨rfl, fun h => Instr.noConfusion h, fun _ _ h => Instr.noConfusion h⟩

theorem test_witness_OffersAndReservationsExpire :
    (let s := setRec offeredA 4 { getRec offeredA 4 with deadline := some 0 }
     let t := setRec reservedA 4 { getRec reservedA 4 with deadline := some 0 }
     s.inReset = false ∧ 4 ∈ s.offers ∧ (getRec s 4).state = .offered ∧ (getRec s 4).deadline = some 0
      ∧ t.inReset = false
      ∧ t.reservations.find? (fun g => (getRec t g).state == .reserved && (getRec t g).deadline == some 0) = some 4) := by
  decide

theorem test_witness_TravelAndReportTimersExpire :
    (let s := withSection .deploying (some 0) caseA
     let t := { inRole .head caseA with reportState := .awaiting, reportTimer := some 0, report := some (1, .aboard) }
     s.inReset = false ∧ (Table.find s.sections 0).map (fun e => (e.state, e.timer)) = some (.deploying, some 0)
      ∧ t.inReset = false ∧ t.role = .head ∧ t.reportState = .awaiting ∧ t.reportTimer = some 0) := by
  decide

theorem test_witness_FramesArriveAndWaitInLine :
    (let full := { caseA with rxFwd := List.replicate 16 .identify }
     let room := { caseA with rxFwd := List.replicate 15 .identify }
     let closed := { taking .fwd .abort caseA with origRet := List.replicate 32 (.freed 0) }
     caseA.inReset = false ∧ unconnected caseA .fwd = false ∧ commandFrame .abort = some (.fwd, .abort)
      ∧ (rxQueue closed .fwd).head? = some .abort ∧ intakeOpen closed = false
      ∧ (rxQueue full .fwd).head? = some .identify ∧ (rxQueue room .fwd).head? = some .identify
      ∧ Frame.identify ≠ .abort ∧ (rxQueue full .fwd).length = 16 ∧ (rxQueue room .fwd).length = 15
      ∧ rxQueue caseA .fwd = []) := by
  decide

/-- The arrival tests at the edges of the length byte, 8 and 72, and with a check that stands and one that does not. -/
theorem test_witness_FramesArriveAndWaitInLine_tests :
    (let good := frameBytes 0x10 [1, 2, 3]
     (∀ b ∈ [0x7D#8, 0x7F#8], b ≠ 0x7E#8) ∧ ([0x10#8] : List Byte).length < 2 ∧ (7#8).toNat < 8 ∧ 72 < (73#8).toNat
      ∧ (good.drop 2).head? = some 8#8 ∧ (good.drop 3).length + 3 = 8
      ∧ ((good.drop 3).drop 3).take 2 = beBytes 2 (frameCheck ((good.drop 1).take 5)).toNat
      ∧ (([1#8, 2, 4] ++ good.drop 6).drop 3).take 2 ≠ beBytes 2 (frameCheck ((good.drop 1).take 2 ++ [1, 2, 4])).toNat) := by
  decide +kernel

theorem test_witness_ArbitersAlternate :
    (let s := { caseA with passFwd := [.abort], origFwd := [.identify], passRet := [.freed 1], origRet := [.trailer 1 1] }
     s.inReset = false ∧ s.emitting = false ∧ s.lastFwd = .originated ∧ s.lastRet = .originated
      ∧ ({ s with lastFwd := .pass, lastRet := .pass } : State).lastFwd = .pass ∧ caseA.passFwd = [] ∧ caseA.origFwd = []
      ∧ caseA.passRet = [] ∧ caseA.origRet = []) := by
  decide

theorem test_witness_SectionsAreComposedAndSent :
    (let t := composeSection caseA .aboard token
     let s := { t with origRet := [sectionFrame caseA 1 4] }
     0 ∈ sectionHandles caseA .aboard ∧ 4 ∉ sectionHandles caseA .aboard
      ∧ 8 ∈ sectionHandles (after (.tallyOff 12 12 false) (taking .fwd (.tallyOff 12 12 false) loading4)) .changed
      ∧ 1 ∈ sectionHandles caseA (.rank 2) ∧ 7 ∈ sectionHandles loading4 .plan
      ∧ s.inReset = false ∧ s.emitting = true ∧ s.heldToken = some token ∧ s.passRet = []
      ∧ s.origRet.map isSectionFrame = [true] ∧ s.origRet.length = 1
      ∧ ({ s with passRet := [.freed 1], lastRet := .pass } : State).lastRet = .pass) := by
  decide

/-- R170: the first entry and each entry of another lane than the one before begin a run. -/
theorem test_witness_SectionsAreComposedAndSent_runs :
    (let e := fun h => entryOfRec (getRec loading h)
     (getRec loading 8).desc = some (unit 12 .artic 165 382 2)
      ∧ (markRuns none [e 7, e 8, { e 9 with lane := 13 }]).map Prod.fst = [true, false, true]
      ∧ (e 8).offset = some 125 ∧ (e 8).mass = 382) := by
  decide

theorem test_witness_FramesNotForThisEngine :
    (let q : ReqHead := { target := 3, tag := 1 }
     let s := taking .fwd (.request q .undo) caseA
     Ready .fwd (.freed 1) (taking .fwd (.freed 1) caseA) ∧ actsOn .fwd (.freed 1) = false
      ∧ Ready .ret .abort (taking .ret .abort caseA) ∧ actsOn .ret .abort = false
      ∧ Ready .fwd (.request q .undo) s ∧ q.target ≠ s.position ∧ (inRole .head s).role = .head ∧ s.role = .sole
      ∧ Addressed here (.malformed 255 []) (asked (.malformed 255 []) caseA)) := by
  decide

theorem test_witness_CheckInByRole :
    (let s := taking .fwd (.checkIn checkIn) caseA
     Ready .fwd (.checkIn checkIn) s ∧ s.voyage = .opened ∧ s.role = .sole ∧ Ready .fwd (.checkIn checkIn) (inRole .head s)
      ∧ Ready .fwd (.checkIn checkIn) (inRole .mid s) ∧ Ready .fwd (.checkIn checkIn) (inRole .tail s)
      ∧ Ready .fwd (.checkIn checkIn) { s with voyage := .closed }) := by
  decide

theorem test_witness_StampAndValidate :
    descFaulty artic = false ∧ descFaulty (.long 3 false 1 9 165 1200 601 15) = false
      ∧ descFaulty (.long 3 false 1 9 165 1201 400 0) = true ∧ descFaulty (.long 3 false 1 9 165 382 400 16) = true := by
  decide

/-- The forms' edges: the kinds 5 and 6 of a long form, 1 and 2 of a short one, and the short form's largest figures. -/
theorem test_witness_StampAndValidate_forms :
    descFaulty (.long 5 true 7 9 250 5 100 0) = false ∧ descFaulty (.long 6 true 7 9 250 5 100 0) = true
      ∧ descFaulty (.short 2 0 9 0 0 0) = true
      ∧ descUnit (.long 5 true 7 9 250 5 601 15)
        = some { unit 9 .project 250 5 8 with height := 600, hazard := some 15, reefer := true }
      ∧ descUnit (.short 1 7 9 63 63 7) = some { unit 9 .van 146 320 8 with height := 325 } := by
  decide

theorem test_witness_BidStepWithoutABid :
    ({ caseA with voyage := .closed } : State).voyage ≠ .opened ∧ ({ checkIn with bid := .invalid } : CheckIn).bid = .invalid
      ∧ 600 < descHeight (.long 3 false 1 9 165 382 601 0)
      ∧ bidPasses reservedA checkIn = false ∧ findHolder reservedA (descMark checkIn.desc) = some 4
      ∧ holderState (getRec reservedA 4).state = some .reserved
      ∧ findHolder caseA (descMark checkIn.desc) = none ∧ liveCount caseA < 480
      ∧ 8 ≤ ({ caseA with offers := List.replicate 8 0 } : State).offers.length
      ∧ 64 ≤ ({ caseA with reservations := List.replicate 64 0 } : State).reservations.length := by
  decide

/-- R80: a height of 600 is bid on, one of 601 is not. -/
theorem test_bid_step_height_edge :
    bidPasses caseA { checkIn with desc := .long 3 false 1 9 165 382 600 0 } = false
      ∧ bidPasses caseA { checkIn with desc := .long 3 false 1 9 165 382 601 0 } = true
      ∧ bidPasses caseA { checkIn with bid := .bid 65535 3 255 65535 } = false := by
  decide

/-- R80, Table 11.5: a DUPLICATE bid block of state code 0 is read, and a MID passes it on as it came. -/
theorem test_unnamed_duplicate_passes :
    bidOfBytes [0x90#8, 0, 0, 12, 3, 0xD9#8] = some (.duplicate 1 12 985 none)
      ∧ bidStep caseA { checkIn with bid := .duplicate 1 12 985 none } = ({ checkIn with bid := .duplicate 1 12 985 none }, caseA) :=
  by decide

theorem test_witness_BidStepCompetes :
    (let s := { caseA with offers := List.replicate 7 0, reservations := List.replicate 56 0 }
     bidPasses s checkIn = false ∧ findHolder s (descMark checkIn.desc) = none
      ∧ descUnit checkIn.desc = some (unit 9 .artic 165 382 2) ∧ s.offers.length < 8
      ∧ s.offers.length + s.reservations.length = 63 ∧ allocate s = some (4, s) ∧ hasRoom s 12 = true) := by
  decide

theorem test_witness_BidStepCompetes_records_low :
    480 ≤ liveCount (crowded 480 caseA) ∧ ¬480 ≤ liveCount (crowded 479 caseA) := by decide +kernel

theorem test_witness_BestLaneIsLeast :
    (bestLane caseA (unit 9 .artic 165 382 2)).map (fun b => (b.lane, b.score)) = some (12, 354)
      ∧ bestLane caseA (unit 9 .project 165 382 2) = none := by
  decide

theorem test_witness_ConfirmByRole :
    (let w := confirm (.winner 1 40 0)
     let n := confirm (.none .noLane)
     Ready .ret (.confirm w) (taking .ret (.confirm w) (inRole .head caseA))
      ∧ Ready .ret (.confirm w) (taking .ret (.confirm w) (inRole .mid caseA))
      ∧ (∀ l o, w.result ≠ .winner caseA.position l o) ∧ (∀ r, w.result ≠ .none r)
      ∧ n.result = .none .noLane ∧ NoneReason.noLane ≠ .cancelled) :=
  ⟨by decide, by decide, fun _ _ h => by injection h with h; exact absurd h (by decide), fun _ h => ConfirmResult.noConfusion h,
    rfl, by decide⟩

/-- A short description held in long form: the largest figures of its codes. -/
theorem test_witness_ConfirmByRole_held :
    descFaulty (.short 1 7 9 63 63 7) = false ∧ descToLong (.short 1 7 9 63 63 7) = .long 1 false 7 9 146 320 325 0 := by
  decide

theorem test_witness_ConfirmAtTheWinner :
    (let c := confirm (.winner 0 12 985)
     let busy := placeOffer caseA (unit 10 .artic 165 382 2) 562 12
     c.result = .winner offeredA.position 12 985 ∧ matchingOffer offeredA c = some 4
      ∧ (getRec offeredA 4).cancelPending = false
      ∧ matchingOffer reservedA c = none ∧ findHolder reservedA (descMark c.desc) = some 4
      ∧ holderState (getRec reservedA 4).state = some .reserved
      ∧ matchingOffer caseA c = none ∧ findHolder caseA (descMark c.desc) = none
      ∧ descUnit c.desc = some (unit 9 .artic 165 382 2) ∧ lateEligible caseA (unit 9 .artic 165 382 2) 12 = true
      ∧ liveCount caseA < 480
      ∧ matchingOffer busy c = none ∧ findHolder busy (descMark c.desc) = none
      ∧ lateEligible busy (unit 9 .artic 165 382 2) 12 = false ∧ liveCount busy < 480
      ∧ descExactUnit c.desc = some (unit 9 .artic 165 382 2) ∧ descExactUnit (.long 3 false 1 9 165 382 601 0) = none
      ∧ allocate caseA = some (4, caseA) ∧ hasRoom caseA 12 = true) := by
  decide

theorem test_witness_FreedCapacityStartsOneRetry :
    (let s := { inRole .head caseA with holds := [held] }
     Ready .ret (.freed 2) (taking .ret (.freed 2) s) ∧ Ready .ret (.freed 2) (taking .ret (.freed 2) (inRole .mid caseA))
      ∧ s.holds = held :: [] ∧ s.voyage = .opened ∧ s.role = .head ∧ (inRole .sole s).role = .sole
      ∧ (inRole .tail s).role = .tail ∧ caseA.holds = []) := by
  decide

theorem test_witness_ListingPlacesTheRecord :
    (let s := setRec caseA 4 (newRecord (unit 9 .artic 165 382 2) .offered)
     (getRec s 4).desc = some (unit 9 .artic 165 382 2) ∧ hasRoom s 12 = true ∧ hasRoom s 18 = false
      ∧ hasRoom fullLane 12 = false ∧ (getRec fullLane 0).desc = some (unit 1 .truck 100 5 3)
      ∧ 4 ∉ occupantsOf s 12) := by
  decide

/-- R40 step 6: the ARTIC listed behind the last ABOARD occupant of a lane with reservations moves each of them aft. -/
theorem test_witness_ListingPlacesTheRecord_behind :
    (let s := setRec loading4 4 (newRecord (unit 9 .artic 165 382 2) .offered)
     4 ∉ occupantsOf s 12 ∧ hasRoom s 12 = true ∧ (occupantsOf s 12).Nodup ∧ pendingPart s (occupantsOf s 12) = [7, 9]
      ∧ places (listBehindAboard s 4 12) [8, 4, 7, 9]
        = [(some 0, some 337), (some 170, some 167), (some 340, some 20), (some 465, some (-113))]) := by
  decide

theorem test_witness_CompactionPacks : (pendingPart loading (occupantsOf loading 12)).Nodup := by decide

theorem test_witness_FreeingAndDepartureUnlist :
    isLive (getRec loading 8).state = true ∧ (getRec loading 8).lane = some 12 ∧ (getRec loading4 8).lane = some 12
      ∧ isLive (getRec loading4 8).state = true := by
  decide

theorem test_witness_AllocationChoosesLowest :
    TablesCanonical reservedA ∧ (allocate reservedA).map Prod.fst = some 5 :=
  ⟨⟨by decide, by decide, by decide, by decide, by decide, by decide, by decide, by decide, by decide, by decide, by decide,
    by decide, by decide⟩, by decide⟩

theorem test_witness_ReservationsStayInOrder :
    loading.reservations = [7, 8, 9]
      ∧ loading.reservations.Pairwise
        (fun a b => (getRec loading a).deadline.getD 0 ≤ (getRec loading b).deadline.getD 0) := by
  decide

theorem test_witness_TallyOnInOrder :
    (let s := taking .fwd (.tallyOn 9 12 (some artic) false) caseA
     Ready .fwd (.tallyOn 9 12 (some artic) false) s ∧ s.voyage ≠ .setup ∧ findHolder s 9 = none
      ∧ ({ s with voyage := .setup } : State).voyage = .setup
      ∧ Ready .fwd (.tallyOff 9 12 false) { taking .fwd (.tallyOff 9 12 false) caseA with voyage := .setup }
      ∧ findHolder reservedA 9 = some 4 ∧ (getRec reservedA 4).state = .reserved ∧ findHolder offeredA 9 = some 4
      ∧ (getRec offeredA 4).state = .offered ∧ findHolder caseA 1 = some 0 ∧ (getRec caseA 0).state = .aboard) := by
  decide

theorem test_witness_CommitPromotesAndIsJudged :
    (getRec loading 8).state = .reserved ∧ (slotOf loading 12).isSome = true ∧ (occupantsOf loading 12).Nodup ∧ canTake reservedA 13 (some 4) = true
      ∧ (getRec reservedA 4).desc = some (unit 9 .artic 165 382 2) ∧ canTake offeredA 13 (some 4) = true
      ∧ (getRec offeredA 4).desc = some (unit 9 .artic 165 382 2) := by
  decide

/-- Two sections hold lane 17, the one as a hoist lane and the other as a covered lane: the lower id comes first. -/
theorem test_witness_CommitPromotesAndIsJudged_section :
    (let s := { caseA with
        sections := [(1, { hoist := [17], covered := [], reduced := 190, travel := 120, state := .stowed, timer := none })
          , (4, { hoist := [16], covered := [17], reduced := 190, travel := 120, state := .deploying, timer := some 5 })] }
     (s.sections.map Prod.fst).Pairwise (· < ·) ∧ holders s 17 = [1, 4] ∧ holders s 16 = [4] ∧ holders s 12 = []) := by
  decide

theorem test_witness_ForcedPlacementOrUnrecorded :
    canTake caseA 12 none = true ∧ liveCount caseA < 512 ∧ allocate caseA = some (4, caseA)
      ∧ (getRec caseA 1).desc = some (unit 2 .truck 100 5 2) ∧ entryOf caseA 12 = some (lane 60 false)
      ∧ canTake fullLane 12 none = false ∧ (slotOf fullLane 12).isSome = true ∧ liveCount fullLane < 512
      ∧ canTake fullLane 12 (some 4) = false ∧ canTake fullLane 12 (some 0) = true := by
  decide

theorem test_witness_ForcedPlacementOrUnrecorded_no_record :
    512 ≤ liveCount (crowded 512 caseA) ∧ ¬512 ≤ liveCount (crowded 511 caseA) := by decide +kernel

theorem test_witness_TallyOffRecordsTheExit :
    (let s := taking .fwd (.tallyOff 9 12 false) offeredA
     let t := taking .fwd (.tallyOff 1 12 false) caseA
     Ready .fwd (.tallyOff 9 12 false) s ∧ s.voyage ≠ .setup ∧ findHolder s 9 = some 4 ∧ (getRec s 4).state ≠ .aboard
      ∧ findHolder t 9 = none
      ∧ Ready .fwd (.tallyOff 1 12 false) t ∧ t.voyage ≠ .setup ∧ findHolder t 1 = some 0 ∧ (getRec t 0).state = .aboard) := by
  decide

/-- U2 and U1 ABOARD in this order, U2 leaving first: R133 logs EXIT_ORDER with U2's mark and the lane, and U1 stays where it
stands. -/
theorem test_tally_off_logs_exit_order :
    (let s := { after (.tallyOn 11 12 none false) (taking .fwd (.tallyOn 11 12 none false) loading4) with log := [], nextExc := 0 }
     let t := after (.tallyOff 12 12 false) (taking .fwd (.tallyOff 12 12 false) s)
     (getRec s 8).state = .aboard ∧ (getRec s 7).state = .aboard ∧ aboardAft s 8 = true ∧ aboardAft s 7 = false
      ∧ t.log = [{ sequence := 0, clock := 0, kind := .exitOrder, mark := some 12, lane := some 12, second := none, detail := none }]
      ∧ occupantsOf t 12 = [7, 9] ∧ places t [7, 9] = [(some 170, some 190), (some 295, some 57)]) := by
  decide

theorem test_witness_HoistStatusActs :
    (let d := taking .fwd (.hoistStatus 0 0 true) (withSection .deploying (some 9) caseA)
     let u := taking .fwd (.hoistStatus 0 0 false) (withSection .stowing (some 9) caseA)
     Ready .fwd (.hoistStatus 0 0 true) d ∧ (0 : Pos) = d.position ∧ (Table.find d.sections 0).isSome = true
      ∧ Ready .fwd (.hoistStatus 0 0 false) u ∧ (Table.find u.sections 0).isSome = true
      ∧ Ready .fwd (.hoistStatus 0 5 true) (taking .fwd (.hoistStatus 0 5 true) caseA) ∧ Table.find caseA.sections 5 = none
      ∧ ([.stowed, .deploying, .deployed, .stowing, .fault].all fun st =>
        (Table.find (withSection st none caseA).sections 0).map SectionEntry.state == some st) = true
      ∧ ({ caseA with log := [exc 0] } : State).records = caseA.records
      ∧ (1 : Pos) ≠ caseA.position) := by
  decide

theorem test_witness_DeployAndStowAnswer :
    Addressed here (.deploy 5) (asked (.deploy 5) caseA) ∧ Addressed here (.deploy 6) (asked (.deploy 6) caseA)
      ∧ Addressed here (.stow 0) (asked (.stow 0) caseA) := by
  decide

theorem test_witness_ReportsStartPassAndEnd :
    (let h := { inRole .head caseA with reportState := .awaiting, reportTimer := some 4, report := some (1, .aboard) }
     Addressed here (.report (.rank 8)) (asked (.report (.rank 8)) caseA)
      ∧ Ready .fwd (.reportToken token) (taking .fwd (.reportToken token) (inRole .mid caseA))
      ∧ Ready .ret (.trailer 1 2) (taking .ret (.trailer 1 2) h) ∧ h.report.map Prod.fst = some 1) := by
  decide

theorem test_witness_LaneMaskSetsAdmin :
    Ready .fwd (.laneMask (1#256 <<< 12) .closed) (taking .fwd (.laneMask (1#256 <<< 12) .closed) caseA) := by decide

theorem test_witness_SealWithdrawsEverythingPending :
    (let s := taking .fwd .sealOrder { reservedA with holds := [held] }
     Ready .fwd .sealOrder s ∧ s.voyage = .opened ∧ 4 ∈ s.reservations ∧ isAboard s 0 = true ∧ 0 ∉ s.offers
      ∧ 0 ∉ s.reservations ∧ 0 ∉ s.trials ∧ ({ s with voyage := .closed } : State).voyage ≠ .opened) := by
  decide

/-- R42, R46: the reservation leaves the list of its lane, and the unit ABOARD stays. -/
theorem test_seal_unlists_reservation :
    (let t := after .sealOrder (taking .fwd .sealOrder reservedA)
     occupantsOf reservedA 12 = [0, 4] ∧ occupantsOf t 12 = [0] ∧ getRec t 4 = freeRecord) := by
  decide

theorem test_witness_AbortWithdrawsWhatIsTentative :
    (let s := taking .fwd .abort trialA
     Ready .fwd .abort s ∧ 4 ∈ s.trials ∧ 0 ∉ s.offers ∧ 0 ∉ s.trials ∧ isAboard s 0 = true) := by
  decide

theorem test_witness_UnsealReopens :
    (let s := taking .fwd (.unsealOrder true) { caseA with voyage := .closed }
     Ready .fwd (.unsealOrder true) s ∧ s.voyage = .closed ∧ recRank (getRec s 2) = 1 ∧ recRank (getRec s 1) = 2) := by
  decide

theorem test_witness_CancelWithdrawsTheMark :
    Ready .fwd (.cancel 9) (taking .fwd (.cancel 9) reservedA) ∧ findHolder reservedA 9 = some 4
      ∧ (getRec reservedA 4).state = .reserved ∧ Ready .fwd (.cancel 9) (taking .fwd (.cancel 9) offeredA)
      ∧ (getRec offeredA 4).state = .offered ∧ Ready .fwd (.cancel 1) (taking .fwd (.cancel 1) caseA)
      ∧ findHolder caseA 1 = some 0 ∧ (getRec caseA 0).state = .aboard ∧ findHolder caseA 9 = none := by
  decide

theorem test_witness_ClockAndIdentify :
    Ready .fwd (.clock 5) (taking .fwd (.clock 5) caseA) ∧ Ready .fwd .identify (taking .fwd .identify caseA) := by decide

theorem test_witness_WriteRangePolicyAndDefaults :
    (let setup := { caseA with voyage := .setup }
     let f : PolicyFields :=
      { wH := some 7, wF := some 8, wO := none, pEmpty := none, offerTimeout := some 4, resTimeout := some 3601 }
     Addressed here (.writeRange 192 64) (asked (.writeRange 192 64) setup)
      ∧ Addressed here (.writePolicy f) (asked (.writePolicy f) caseA)
      ∧ Addressed here (.writeGaps (everyKind (some 30))) (asked (.writeGaps (everyKind (some 30))) setup)
      ∧ Addressed here (.writeDefaultUnit artic) (asked (.writeDefaultUnit artic) setup)) := by
  decide

/-- R18: a WRITE GAPS without a gap is WRONG_STATE in OPEN. -/
theorem test_write_gaps_empty_in_open :
    (actWriteGaps (everyKind none) caseA).code = .wrongState
      ∧ (actWriteGaps (everyKind none) { caseA with voyage := .setup }).code = .ok := by
  decide

theorem test_witness_WriteLaneAnswers :
    (let f : LaneFields :=
      { deck := none, arm := none, stopArm := none, usable := none, clearance := none, plugs := none, kinds := none
        port := none, starboard := none, admin := some .opened, laneMass := none, unitMass := none }
     Addressed here (.writeLane 12 f) (asked (.writeLane 12 f) caseA)
      ∧ Addressed here (.undefineLane 17) (asked (.undefineLane 17) { caseA with voyage := .setup })) := by
  decide

theorem test_witness_WriteDeckAndSectionAnswer :
    (let setup := { withSection .stowed none caseA with voyage := .setup }
     let b : ReqBody := .writeSection 0 [17] [15] 150 (some 600)
     Addressed here (.writeDeck 8 1000000) (asked (.writeDeck 8 1000000) setup)
      ∧ Addressed here (.removeDeck 3) (asked (.removeDeck 3) setup)
      ∧ Addressed here b (asked b setup) ∧ (asked b setup).voyage = .setup
      ∧ ((Table.find setup.sections 0).map SectionEntry.state) = some .stowed
      ∧ (Table.find caseA.sections 0).map SectionEntry.state = some .deployed
      ∧ Addressed here (.removeSection 6) (asked (.removeSection 6) setup)) := by
  decide

theorem test_witness_WriteSegregationAnswers :
    (let ts := List.replicate 16 (1, 15, 4)
     let s := asked (.writeSegregation ts) { caseA with voyage := .setup }
     Addressed here (.writeSegregation ts) s ∧ s.voyage = .setup ∧ ts.length = 16
      ∧ (∀ x ∈ ts, 1 ≤ x.1 ∧ x.1 ≤ 15 ∧ 1 ≤ x.2.1 ∧ x.2.1 ≤ 15 ∧ x.2.2 ≤ 4)
      ∧ ¬(∀ x ∈ [(1, 16, 4)], 1 ≤ x.1 ∧ x.1 ≤ 15 ∧ 1 ≤ x.2.1 ∧ x.2.1 ≤ 15 ∧ x.2.2 ≤ 4)) := by
  decide

theorem test_witness_WriteLimitsAnswers :
    (let s := asked (.writeLimits (some 1000000000) none (some (-399999))) caseA
     Addressed here (.writeLimits (some 1000000000) none (some (-399999))) s ∧ s.limits.tMin < -399999
      ∧ ¬s.limits.tMin < -400000) := by
  decide

theorem test_witness_ReadProfileAnswers :
    Addressed here (.readProfile (.deck 8)) (asked (.readProfile (.deck 8)) caseA)
      ∧ Addressed here (.readProfile (.lane 12)) (asked (.readProfile (.lane 12)) caseA) := by
  decide

theorem test_witness_StowReadsAndEvaluation :
    Addressed here (.readUnit (.handle 511)) (asked (.readUnit (.handle 511)) caseA)
      ∧ Addressed here (.readUnit (.mark 1)) (asked (.readUnit (.mark 1)) caseA)
      ∧ Addressed here (.readLane 12 40) (asked (.readLane 12 40) caseA)
      ∧ Addressed here .readStowSummary (asked .readStowSummary caseA)
      ∧ Addressed here (.evaluate artic none) (asked (.evaluate artic none) caseA) := by
  decide

/-- R48, R49: the figures of a loaded lane from place 2 on, the moments of Table 2.8, and the place of U1 behind U2. -/
theorem test_witness_StowReadsAndEvaluation_figures :
    entryOf loading4 12 = some (lane 60 false)
      ∧ (let v := laneView loading4 12 (lane 60 false) 2
        v.count = 3 ∧ v.projFill = 431 ∧ v.commFill = 165 ∧ v.projMass = 932 ∧ v.commMass = 382 ∧ v.plugsUsed = 1
          ∧ v.tailRank = some 2 ∧ v.occupants.map (fun o => (o.place, o.handle)) = [(2, 7), (3, 9)])
      ∧ (laneView caseA 15 (lane (-20) false) 1).clearance = 190
      ∧ (stowSummary loading4).commTrim = 128734 ∧ (stowSummary loading4).decks = [(3, 932, 382)]
      ∧ placeOf loading4 7 = some 2 ∧ placeOf loading4 0 = none := by
  decide

theorem test_witness_TrialAnswers : Addressed here (.trial artic) (asked (.trial artic) caseA) := by decide

theorem test_witness_UndoAndCommitTrialsAnswer :
    (let s := asked .commitTrials { trialA with origRet := [] }
     Addressed here .undo (asked .undo { trialA with origRet := [] }) ∧ Addressed here .commitTrials s
      ∧ s.offers.length + s.reservations.length + s.trials.length ≤ 64
      ∧ 64 < ({ s with reservations := List.replicate 64 0 } : State).reservations.length + s.trials.length) := by
  decide

theorem test_witness_ReadHoldListAnswers :
    Addressed here (.readHoldList 32) (asked (.readHoldList 32) { caseA with holds := [held] }) := by decide

theorem test_witness_OpenVoyageWhenProfileSound :
    (let s := asked .openVoyage { caseA with voyage := .setup }
     Addressed here .openVoyage s ∧ s.voyage = .setup ∧ profileError s = none ∧ profileError State.reset ≠ none) := by
  decide

/-- Table 8.2 clause by clause: no lane; lane 12 with its deck missing ahead of lane 13 with no port neighbour; a hoist lane
that is no defined lane; a covered lane that is none. -/
theorem test_witness_OpenVoyageWhenProfileSound_faults :
    (let bad : LaneEntry := { lane 60 false with deck := 4 }
     let alone : LaneEntry := { lane 60 false with port := some 18 }
     let s := { caseA with lanes := [slot bad [], slot alone []] }
     let sect := fun (hoist covered : List Lane) =>
      ({ caseA with sections := [(0, { hoist := hoist, covered := covered, reduced := 190, travel := 120, state := .stowed
                                       timer := none })] } : State)
     definedLanes State.reset = [] ∧ profileError State.reset = some ⟨.range, State.reset.lanes.length, .noLaneDefined⟩
      ∧ (12, bad) ∈ definedLanes s ∧ (13, alone) ∈ definedLanes s
      ∧ profileError s = some ⟨.lane, 12, .deckMissing⟩
      ∧ profileError { s with lanes := [slot (lane 60 false) [], slot alone []] } = some ⟨.lane, 13, .portNeighbour⟩
      ∧ definedLanes caseA ≠ []
      ∧ entryOf caseA 18 = none ∧ profileError (sect [18] [19]) = some ⟨.sections, 0, .hoistLane⟩
      ∧ profileError (sect [17] [19]) = some ⟨.sections, 0, .coveredLane⟩) := by
  decide

theorem test_witness_ClearVoyageInTwoSteps :
    (let s := asked .clearVoyage caseA
     Addressed here .clearVoyage s ∧ s.voyage ≠ .setup ∧ s.pendingClear = false
      ∧ ({ s with pendingClear := true } : State).pendingClear = true ∧ ({ s with voyage := .setup } : State).voyage = .setup)
    := by
  decide

theorem test_witness_BallastAndReadVoyage :
    Addressed here (.ballast 0x80000000 0x7FFFFFFF) (asked (.ballast 0x80000000 0x7FFFFFFF) caseA)
      ∧ Addressed here .readVoyage (asked .readVoyage caseA) := by
  decide

theorem test_witness_DrainLogAnswers :
    Addressed here (.drainLog 3) (asked (.drainLog 3) { caseA with log := [exc 0] }) := by decide

theorem test_witness_AckNoticesAndSetEnables :
    Addressed here (.ackNotices noNotices) (asked (.ackNotices noNotices) caseA)
      ∧ Addressed here (.setEnables noNotices) (asked (.setEnables noNotices) caseA) := by
  decide

/-- A table reads nothing at a key above all its keys. -/
theorem find_above {α : Type} {n : Nat} : ∀ {t : List (Nat × α)}, (∀ e ∈ t, e.1 < n) → ∀ h, n ≤ h → Table.find t h = none
  | [], _, _, _ => rfl
  | e :: t, a, h, hn => by
    have := a e (List.mem_cons_self ..)
    unfold Table.find
    rw [if_neg (by omega)]
    exact find_above (fun x hx => a x (List.mem_cons_of_mem _ hx)) h hn

/-- Case A with the ARTIC reserved: a state that meets every condition with something reserved and something ABOARD. -/
theorem reservedA_records (h : Nat) : h = 0 ∨ h = 1 ∨ h = 2 ∨ h = 3 ∨ h = 4 ∨ getRec reservedA h = freeRecord := by
  by_cases hn : 5 ≤ h
  · refine .inr (.inr (.inr (.inr (.inr ?_))))
    unfold getRec
    rw [find_above (n := 5) (by decide) h hn]
    rfl
  · obtain e | e | e | e | e : h = 0 ∨ h = 1 ∨ h = 2 ∨ h = 3 ∨ h = 4 := by omega
    all_goals simp [e]

theorem reservedA_lanes (l : Nat) :
    l = 12 ∨ l = 13 ∨ l = 14 ∨ l = 15 ∨ l = 16 ∨ l = 17 ∨ occupantsOf reservedA l = [] := by
  by_cases hl : 12 ≤ l ∧ l < 18
  · obtain e | e | e | e | e | e : l = 12 ∨ l = 13 ∨ l = 14 ∨ l = 15 ∨ l = 16 ∨ l = 17 := by omega
    all_goals simp [e]
  · refine .inr (.inr (.inr (.inr (.inr (.inr ?_)))))
    have base : reservedA.rangeBase = 12 := by decide
    have size : reservedA.lanes.length = 6 := by decide
    unfold occupantsOf slotOf
    rw [base]
    split
    · rw [List.getElem?_eq_none (by omega)]
      rfl
    · rfl

theorem reservedA_agrees : MapAgrees reservedA := by
  have listed : ∀ l, l = 12 ∨ l = 13 ∨ l = 14 ∨ l = 15 ∨ l = 16 ∨ l = 17 → ∀ h,
      h ∈ occupantsOf reservedA l ↔ isLive (getRec reservedA h).state = true ∧ (getRec reservedA h).lane = some l := by
    intro l hl h
    obtain rfl | rfl | rfl | rfl | rfl | e := reservedA_records h
    iterate 5 (obtain rfl | rfl | rfl | rfl | rfl | rfl := hl <;> decide)
    · rw [e]
      have : ∀ m ∈ [12, 13, 14, 15, 16, 17], ∀ g ∈ occupantsOf reservedA m, g < 5 := by decide
      refine ⟨fun hm => ?_, fun hm => Bool.noConfusion hm.1⟩
      have hlt := this l (by simpa using hl) h hm
      have : ∀ g < 5, getRec reservedA g ≠ freeRecord := by decide
      exact absurd e (this h hlt)
  refine ⟨fun l h => ?_, fun h => ?_, fun l => ?_, fun l => ?_, fun h => ?_, fun h => ?_, fun h => ?_, fun h => ?_, by decide⟩
  · obtain rfl | rfl | rfl | rfl | rfl | rfl | e := reservedA_lanes l
    iterate 6 exact listed _ (by decide) h
    · rw [e]
      refine ⟨fun hm => absurd hm List.not_mem_nil, fun hm => ?_⟩
      obtain rfl | rfl | rfl | rfl | rfl | e' := reservedA_records h
      iterate 5
        · have := hm.2
          have e2 : some l = (getRec reservedA _).lane := hm.2.symm
          first
            | (have e3 : l = 12 := Option.some.inj (e2.trans (by decide)); subst e3; exact absurd e (by decide))
            | (have e3 : l = 13 := Option.some.inj (e2.trans (by decide)); subst e3; exact absurd e (by decide))
            | (have e3 : l = 16 := Option.some.inj (e2.trans (by decide)); subst e3; exact absurd e (by decide))
            | (have e3 : l = 17 := Option.some.inj (e2.trans (by decide)); subst e3; exact absurd e (by decide))
      · rw [e'] at hm
        exact Bool.noConfusion hm.1
  · obtain rfl | rfl | rfl | rfl | rfl | e := reservedA_records h
    iterate 5 decide
    · rw [e]; exact fun hm => Bool.noConfusion hm
  · obtain rfl | rfl | rfl | rfl | rfl | rfl | e := reservedA_lanes l
    iterate 6 decide
    · rw [e]; decide
  · obtain rfl | rfl | rfl | rfl | rfl | rfl | e := reservedA_lanes l
    iterate 6 decide
    · rw [e]; decide
  iterate 4
    · obtain rfl | rfl | rfl | rfl | rfl | e := reservedA_records h
      iterate 5 decide
      · rw [e]
        refine ⟨fun hm => ?_, fun hm => RecState.noConfusion hm⟩
        have a : reservedA.offers = [] ∧ reservedA.reservations = [4] ∧ reservedA.trials = [] ∧ reservedA.departures = [] := by
          decide
        simp only [a.1, a.2.1, a.2.2.1, a.2.2.2, List.mem_singleton, List.not_mem_nil] at hm
        all_goals (subst hm; exact absurd e (by decide))

theorem reservedA_rooms : WithinRooms reservedA := by
  refine ⟨fun l => ?_, by decide, by decide⟩
  obtain rfl | rfl | rfl | rfl | rfl | rfl | e := reservedA_lanes l
  iterate 6 decide
  · rw [e]; decide

theorem reservedA_one : OneHolder reservedA := by
  intro m g h hg hh mg mh
  have all : ∀ a < 5, ∀ b < 5, ∀ x, (getRec reservedA a).desc.map UnitDesc.mark = some x →
      (getRec reservedA b).desc.map UnitDesc.mark = some x → a = b := by
    intro a ha b hb x e1 e2
    have : ∀ a < 5, ∀ b < 5, (getRec reservedA a).desc.map UnitDesc.mark = (getRec reservedA b).desc.map UnitDesc.mark →
      a = b := by decide
    exact this a ha b hb (e1.trans e2.symm)
  have lt : ∀ x, isHolder (getRec reservedA x).state = true → x < 5 := by
    intro x hx
    obtain rfl | rfl | rfl | rfl | rfl | e := reservedA_records x
    iterate 5 decide
    · rw [e] at hx; exact Bool.noConfusion hx
  exact all g (lt g hg) h (lt h hh) m (beq_iff_eq.1 mg) (beq_iff_eq.1 mh)

theorem reservedA_packed {t : State} (hg : t.gaps = reservedA.gaps) (ho : ∀ l, occupantsOf t l = occupantsOf reservedA l)
    (hk : ∀ g, getRec t g = getRec reservedA g) : PendingPacked t := by
  refine pendingPacked_congr hg ho (fun g => by rw [hk]) fun l => ?_
  obtain rfl | rfl | rfl | rfl | rfl | rfl | e := reservedA_lanes l
  iterate 6 decide
  · rw [e]; rfl

/-- A state in which a tick is waiting and something is reserved. -/
def ticking : State := { reservedA with pending := [.stowClockTick] }

theorem ticking_voyage : VoyageConsistent ticking :=
  ⟨by decide, by decide, by decide, by decide, by decide, by decide, by decide, by decide, by decide⟩

theorem test_witness_StepKeepsTables : TablesCanonical ticking ∧ step ticking = .next (tickState reservedA) :=
  ⟨⟨by decide, by decide, by decide, by decide, by decide, by decide, by decide, by decide, by decide, by decide, by decide,
    by decide, by decide⟩, rfl⟩

theorem test_witness_StowReadsAndEvaluation_finds :
    TablesCanonical ticking ∧ findHolder ticking 9 = some 4 ∧ findHolder ticking 77 = none ∧ findTrial ticking 9 = none
      ∧ findTrial trialA 9 = some 4
      ∧ findLeft (after (.tallyOff 12 12 false) (taking .fwd (.tallyOff 12 12 false) loading4)) 12 = some 8
      ∧ (eligibleLanes caseA (unit 9 .artic 165 382 2)).map Prod.fst = [12, 13, 14] :=
  ⟨test_witness_StepKeepsTables.1, by decide, by decide, by decide, by decide, by decide, by decide⟩

theorem test_witness_StepKeepsTables_map :
    MapAgrees ticking ∧ WithinRooms ticking ∧ PendingPacked ticking ∧ ReservationsInOrder ticking ∧ OneHolder ticking ∧ VoyageConsistent ticking ∧ TablesCanonical ticking
      ∧ SegregationSymmetric ticking ∧ step ticking = .next (tickState reservedA) :=
  ⟨⟨reservedA_agrees.listed, reservedA_agrees.placed, reservedA_agrees.once, reservedA_agrees.order, reservedA_agrees.offered,
      reservedA_agrees.reserved, reservedA_agrees.trial, reservedA_agrees.left, reservedA_agrees.distinct⟩,
    ⟨reservedA_rooms.occupants, reservedA_rooms.offers, reservedA_rooms.commitments⟩,
    reservedA_packed rfl (fun _ => rfl) (fun _ => rfl),
    (by decide : reservedA.reservations.Pairwise fun g h => ticksLeft reservedA g ≤ ticksLeft reservedA h), reservedA_one, ticking_voyage,
    test_witness_StepKeepsTables.1, fun _ _ _ _ _ _ => rfl, rfl⟩

theorem test_witness_SealAndAbort_map :
    MapAgrees (taking .fwd .sealOrder reservedA) ∧ 4 ∈ reservedA.reservations ∧ MapAgrees (taking .fwd .abort reservedA)
      ∧ PendingPacked (taking .fwd .abort reservedA) :=
  have a := reservedA_agrees
  ⟨⟨a.listed, a.placed, a.once, a.order, a.offered, a.reserved, a.trial, a.left, a.distinct⟩, by decide,
    ⟨a.listed, a.placed, a.once, a.order, a.offered, a.reserved, a.trial, a.left, a.distinct⟩,
    reservedA_packed rfl (fun _ => rfl) (fun _ => rfl)⟩

/-- The laws of R106 with a unit held twice already and one held once, and what breaks them. -/
theorem test_hold_list_laws :
    (let e : HoldEntry := { desc := artic, reason := .noLane, heldSince := 0, retries := 14 }
     let f : HoldEntry := { e with desc := .long 0 false 0 10 45 15 200 0, retries := 0 }
     HoldsLawful [e, f] ∧ ¬ HoldsLawful [e, f, e] ∧ ¬ HoldsLawful [{ e with retries := 15 }]) := by
  decide

theorem test_witness_StepKeepsSizes :
    WithinSizes ticking ∧ TablesCanonical ticking ∧ step ticking = .next (tickState reservedA) :=
  ⟨⟨by decide, by decide, by decide, by decide, by decide, by decide, by decide⟩, test_witness_StepKeepsTables⟩

theorem test_witness_StepKeepsArmedQuiet :
    ArmedQuiet ticking ∧ ticking.armed = true ∧ step ticking = .next (tickState reservedA) :=
  ⟨fun _ => by decide, by decide, rfl⟩

theorem test_witness_StepKeepsVoyageConsistent :
    VoyageConsistent ticking ∧ VoyageConsistent { State.reset with pending := [.stowClockTick] }
      ∧ step ticking = .next (tickState reservedA) :=
  ⟨ticking_voyage, ⟨by decide, by decide, by decide, by decide, by decide, by decide, by decide, by decide, by decide⟩, rfl⟩

theorem test_witness_EncodingsAreReadBack :
    (BidBlock.bid 65535 3 255 65535).wf = true ∧ (BidBlock.duplicate 3 255 65535 (some .aboard)).wf = true
      ∧ (List.replicate 67 (0 : Byte)).length ≤ 67 ∧ (∀ b ∈ [0x7D#8, 0x7F#8], b ≠ 0x7E#8)
      ∧ -(2 ^ (8 * 2 - 1) : Int) ≤ -32768 ∧ (32767 : Int) < 2 ^ (8 * 2 - 1) := by
  decide

/-- R159: the reservation behind a withdrawn trial is packed up to where the trial stood. -/
theorem test_abort_packs_reservations :
    (let s := reserve 7 (unit 11 .truck 120 250 3) trialA
     let t := after .abort (taking .fwd .abort s)
     occupantsOf s 12 = [0, 4, 7] ∧ places s [7] = [(some 1155, some (-795))]
      ∧ occupantsOf t 12 = [0, 7] ∧ places t [7] = [(some 985, some (-625))] ∧ (getRec t 7).changed = true) := by
  decide

/-- The entry of U2 as Table 11.7 lays it out, a run start, and a record whose detail word is check 15 of Table 11.6. -/
theorem test_witness_EncodingsAreReadBack_layouts :
    (let e := entryOfRec (getRec loading4 8)
     let r := { exc 1 with detail := some (.checks [.trim]) }
     e.state ≠ .free ∧ 1 ≤ e.rank ∧ e.rank ≤ 8 ∧ e.mass < 2048 ∧ e.offset.getD 0 < 16384 ∧ e.lane ≤ 255
      ∧ (entryBytes 0 true e).length = 11 ∧ (excBytes r).length = 20 ∧ (excBytes r).drop 18 = [0x40#8, 0]
      ∧ [r, r, r].length ≤ 3 ∧ [(true, e)].length ≤ 6) := by
  decide

/-- Edges of the clauses of O60: numbers of 32 bits, a range of 64 lanes, fifteen codes; and an offset of 16,384 and more leaves
the run start of its entry as it is. -/
theorem test_witness_EncodingsAreReadBack_numbers :
    (4294967295 < 2 ^ 32 ∧ bytesNeeded 255 = 1 ∧ bytesNeeded 256 = 2 ∧ bytesNeeded 65536 = 3 ∧ bytesNeeded 4294967295 = 4)
      ∧ signedBytesNeeded (-128) = 1 ∧ signedBytesNeeded 128 = 2 ∧ (64 ≤ 64)
      ∧ (List.replicate 15 SegCode.deckApart).length ≤ 15 := by
  decide

/-- Table 11.5: BID, position 1, score 600, lane 12, offset 985; Table 11.4: CAR, rank 2, mark 9, codes 12, 3 and 1. -/
theorem test_bid_and_short_bytes :
    bidBytes (.bid 600 1 12 985) = [0x50#8, 0x02#8, 0x58#8, 12, 0x03#8, 0xD9#8]
      ∧ descBytes (.short 0 1 9 12 3 1) = [1, 0, 0, 0, 0, 9, 48, 12, 1] := by
  have h : fitOffset 16 985 = 985 := fitOffset_of_lt (by decide)
  exact ⟨by simp only [bidBytes, h]; decide, by decide⟩

/-- R76, section 3.4 of the introduction: the count of a range is carried as it is, since it can be 0 (R3). -/
theorem test_range_count_as_held :
    (bodyFields (.ident 0 .sole 0 0 0 .setup)).getLast? = some [.number 0]
      ∧ replyFields (.profileSummary 0 0 0 [] []) = [[.bytes [0], .number 0, .number 0]] := by
  decide

theorem test_long_offset_stays_in_its_field : fitOffset 14 16383 = 16383 ∧ fitOffset 14 16384 < 16384 :=
  ⟨fitOffset_of_lt (by decide), fitOffset_lt 14 16384⟩

/-- R20: the fifteen codes of a SEGREGATION reply stand in class order. -/
theorem test_segregation_codes_in_order :
    replyFields (.profileSegregation [.none, .deckApart, .laneApart]) = [[.number 0, .number 4, .number 3]] := by
  decide

/-- R3: the count of WRITE RANGE is carried less one. R156: CLEAR VOYAGE is its head alone. -/
theorem test_request_bodies :
    requestFields (.writeRange 12 6) = [[.bytes [12]], [.number 5]]
      ∧ frameBody (.request here .clearVoyage) = [0, 7, Config.requestKind .clearVoyage] :=
  ⟨rfl, rfl⟩

theorem test_witness_EncodingsAreReadBack_request (k : Byte) (l : List Byte) : ReqBody.undo ≠ .malformed k l :=
  fun h => ReqBody.noConfusion h

end Sys2Proof.Tests
end

namespace Sys2Proof.Machine

/-! # What every step keeps (O56, O58)

Every command is a chain of a few operations. `Keeps V s t` says what such an operation does for all the conditions of
`Safety.lean` at once; it is transitive, so each command is settled by chaining the lemmas of the operations it runs. -/

/-! ## The relation -/

/-- A state whose tables are canonical, whose map and lists agree, and whose lists are within their rooms. -/
structure Sound (s : State) : Prop where
  tables : TablesCanonical s
  agrees : MapAgrees s
  rooms : WithinRooms s

/-- What an operation on a sound state leaves of the Stow Map and the lists, the holders of marks apart. -/
structure Moves (s t : State) : Prop where
  agrees : MapAgrees t
  rooms : WithinRooms t
  packed : PendingPacked s → PendingPacked t
  order : ReservationsInOrder s → ReservationsInOrder t

/-- What an operation on a sound state leaves of the Stow Map and the lists. -/
structure Follows (s t : State) : Prop extends Moves s t where
  holder : OneHolder s → OneHolder t

/-- An operation keeps every condition; what it does to the map and the lists may rest on `V`, a condition on the state the
step began in. -/
structure Keeps (V : Prop) (s t : State) : Prop where
  symmetric : SegregationSymmetric s → SegregationSymmetric t
  tables : TablesCanonical s → TablesCanonical t
  sizes : TablesCanonical s → WithinSizes s → WithinSizes t
  map : V → Sound s → Follows s t

theorem Keeps.sound {V : Prop} {s t : State} (k : Keeps V s t) (v : V) (h : Sound s) : Sound t :=
  ⟨k.tables h.tables, (k.map v h).agrees, (k.map v h).rooms⟩

theorem Moves.trans {s t u : State} (a : Moves s t) (b : Moves t u) : Moves s u :=
  ⟨b.agrees, b.rooms, b.packed ∘ a.packed, b.order ∘ a.order⟩

theorem Follows.trans {s t u : State} (a : Follows s t) (b : Follows t u) : Follows s u :=
  ⟨a.toMoves.trans b.toMoves, b.holder ∘ a.holder⟩

theorem Keeps.trans {V : Prop} {s t u : State} (a : Keeps V s t) (b : Keeps V t u) : Keeps V s u where
  symmetric h := b.symmetric (a.symmetric h)
  tables h := b.tables (a.tables h)
  sizes h w := b.sizes (a.tables h) (a.sizes h w)
  map v h := (a.map v h).trans (b.map v (a.sound v h))

/-- What the map clause rests on may be weakened. -/
theorem Keeps.mono {V W : Prop} {s t : State} (k : Keeps W s t) (h : V → Sound s → W) : Keeps V s t where
  symmetric := k.symmetric
  tables := k.tables
  sizes := k.sizes
  map v sd := k.map (h v sd) sd

/-! ## What stands beside the Stow Map -/

/-- Everything that the conditions read, records, occupant lists and the four lists of handles apart, stands. -/
structure SameProfile (s t : State) : Prop where
  base : t.rangeBase = s.rangeBase := by simp
  entries : t.lanes.map LaneSlot.entry = s.lanes.map LaneSlot.entry := by simp
  decks : t.decks = s.decks := by simp
  sections : t.sections = s.sections := by simp
  segregation : t.segregation = s.segregation := by simp
  gaps : t.gaps = s.gaps := by simp
  holds : t.holds = s.holds := by simp
  rxFwd : t.rxFwd = s.rxFwd := by simp
  rxRet : t.rxRet = s.rxRet := by simp
  log : t.log = s.log := by simp

theorem SameProfile.refl (s : State) : SameProfile s s := {}

theorem SameProfile.trans {s t u : State} (a : SameProfile s t) (b : SameProfile t u) : SameProfile s u where
  base := b.base.trans a.base
  entries := b.entries.trans a.entries
  decks := b.decks.trans a.decks
  sections := b.sections.trans a.sections
  segregation := b.segregation.trans a.segregation
  gaps := b.gaps.trans a.gaps
  holds := b.holds.trans a.holds
  rxFwd := b.rxFwd.trans a.rxFwd
  rxRet := b.rxRet.trans a.rxRet
  log := b.log.trans a.log

theorem SameProfile.lanes_length {s t : State} (p : SameProfile s t) : t.lanes.length = s.lanes.length := by
  simpa using congrArg List.length p.entries

theorem SameProfile.entryOf {s t : State} (p : SameProfile s t) (l : Lane) : entryOf t l = entryOf s l := by
  have read (u : State) : Machine.entryOf u l
      = if u.rangeBase ≤ l then ((u.lanes.map LaneSlot.entry)[l - u.rangeBase]?).bind id else none := by
    unfold Machine.entryOf slotOf
    split
    · rw [List.getElem?_map]; cases u.lanes[l - u.rangeBase]? <;> rfl
    · rfl
  rw [read, read, p.base, p.entries]

theorem SameProfile.listable {s t : State} (p : SameProfile s t) (l : Lane) : listable t l = listable s l := by
  unfold Machine.listable deckOf; rw [p.entryOf, p.decks]

theorem SameProfile.hasRoom {s t : State} (p : SameProfile s t) {l : Lane}
    (o : (occupantsOf t l).length ≤ (occupantsOf s l).length) (h : hasRoom s l = true) : hasRoom t l = true := by
  unfold Machine.hasRoom at h ⊢
  rw [p.listable]
  simp only [Bool.and_eq_true, decide_eq_true_eq] at h ⊢
  exact ⟨h.1, o.trans_lt h.2⟩

theorem SameProfile.symmetric {s t : State} (p : SameProfile s t) (h : SegregationSymmetric s) : SegregationSymmetric t := by
  unfold SegregationSymmetric segGet at h ⊢; rw [p.segregation]; exact h

theorem SameProfile.sizes {s t : State} (p : SameProfile s t) (w : WithinSizes s)
    (trials : t.trials.length ≤ Config.trialCapacity) : WithinSizes t where
  lanes := p.lanes_length ▸ w.lanes
  decks := p.decks ▸ w.decks
  rxFwd := p.rxFwd ▸ w.rxFwd
  rxRet := p.rxRet ▸ w.rxRet
  log := p.log ▸ w.log
  holds := p.holds ▸ w.holds
  trials := trials

theorem sameProfile_setRec (s : State) (h : Handle) (r : UnitRec) : SameProfile s (setRec s h r) := {}

theorem sameProfile_offers (s : State) (o : List Handle) : SameProfile s { s with offers := o } := {}
theorem sameProfile_reservations (s : State) (o : List Handle) : SameProfile s { s with reservations := o } := {}
theorem sameProfile_trials (s : State) (o : List Handle) : SameProfile s { s with trials := o } := {}

theorem map_modify_same {α β : Type} (g : α → β) (f : α → α) (h : ∀ a, g (f a) = g a) (i : Nat) (l : List α) :
    (l.modify i f).map g = l.map g := by
  induction l generalizing i with
  | nil => cases i <;> rfl
  | cons a l ih => cases i with
    | zero => simp [h]
    | succ i => simp [ih]

theorem sameProfile_modifySlot (s : State) (l : Lane) (f : LaneSlot → LaneSlot) (h : ∀ x, (f x).entry = x.entry) :
    SameProfile s (modifySlot s l f) where
  entries := by
    rw [modifySlot_lanes]; split
    · exact map_modify_same _ _ h _ _
    · rfl

theorem sameProfile_setOccupants (s : State) (l : Lane) (o : List Handle) : SameProfile s (setOccupants s l o) :=
  sameProfile_modifySlot s l _ fun _ => rfl

theorem sameProfile_compact (s : State) (l : Lane) : SameProfile s (compact s l) := by rw [compact_only]; exact {}

theorem sameProfile_listAtTail (s : State) (h : Handle) (l : Lane) : SameProfile s (listAtTail s h l) := by
  unfold listAtTail; split
  · exact (sameProfile_setRec _ _ _).trans (sameProfile_setOccupants _ _ _)
  · exact .refl s

theorem sameProfile_placeAboard (s : State) (h : Handle) (l : Lane) : SameProfile s (placeAboard s h l) :=
  ((sameProfile_setRec _ _ _).trans (sameProfile_setOccupants _ _ _)).trans (sameProfile_compact _ _)

theorem sameProfile_listBehindAboard (s : State) (h : Handle) (l : Lane) : SameProfile s (listBehindAboard s h l) := by
  unfold listBehindAboard; split
  · exact sameProfile_placeAboard s h l
  · exact .refl s

theorem sameProfile_promote (s : State) (h : Handle) (l : Lane) : SameProfile s (promote s h l) :=
  (sameProfile_setOccupants _ _ _).trans (sameProfile_placeAboard _ _ _)

theorem sameProfile_unlist (s : State) (h : Handle) : SameProfile s (unlist s h) := by
  unfold unlist; split
  · exact .refl s
  · exact ((sameProfile_setRec _ _ _).trans (sameProfile_setOccupants _ _ _)).trans (sameProfile_compact _ _)

theorem sameProfile_freeRec (s : State) (h : Handle) : SameProfile s (freeRec s h) := by
  have unlisted : SameProfile s (if isLive (getRec s h).state then unlist s h else s) := by
    split
    · exact sameProfile_unlist s h
    · exact .refl s
  unfold freeRec
  exact unlisted.trans {}

theorem sameProfile_makeLeft (s : State) (h : Handle) : SameProfile s (makeLeft s h) := by
  unfold makeLeft
  exact (sameProfile_unlist s h).trans {}

theorem sameProfile_joinReservations (s : State) (h : Handle) : SameProfile s (joinReservations s h) := by
  rw [joinReservations_only]; exact {}

theorem sameProfile_makeReserved (s : State) (h : Handle) : SameProfile s (makeReserved s h) := by
  rw [makeReserved_only]; exact {}

theorem sameProfile_allocate {s t : State} {h : Handle} (e : allocate s = some (h, t)) : SameProfile s t := by
  rw [allocate_only e]; exact {}

/-! ## Operations that leave the Stow Map and the lists as they are -/

/-- Everything that the conditions on the Stow Map and the lists read stands. -/
structure SameMap (s t : State) : Prop where
  records : t.records = s.records := by simp
  base : t.rangeBase = s.rangeBase := by simp
  occupants : t.lanes.map LaneSlot.occupants = s.lanes.map LaneSlot.occupants := by simp
  gaps : t.gaps = s.gaps := by simp
  departures : t.departures = s.departures := by simp
  offers : t.offers = s.offers := by simp
  reservations : t.reservations = s.reservations := by simp
  trials : t.trials = s.trials := by simp

/-- Everything that the conditions read stands, what `WithinSizes` alone reads apart. -/
structure SameStow (s t : State) : Prop extends SameMap s t where
  decks : t.decks = s.decks := by simp
  sections : t.sections = s.sections := by simp
  segregation : t.segregation = s.segregation := by simp

/-- An occupant list is read from the occupant lists of the slots alone. -/
theorem occupantsOf_congr {s t : State} (hb : t.rangeBase = s.rangeBase)
    (ho : t.lanes.map LaneSlot.occupants = s.lanes.map LaneSlot.occupants) (l : Lane) : occupantsOf t l = occupantsOf s l := by
  have read (u : State) : occupantsOf u l
      = if u.rangeBase ≤ l then ((u.lanes.map LaneSlot.occupants)[l - u.rangeBase]?).getD [] else [] := by
    unfold occupantsOf slotOf
    split
    · rw [List.getElem?_map]
    · rfl
  rw [read, read, hb, ho]

/-- Every list of a slot is a member of the slots' lists, and the other way round. -/
theorem occupants_bounded_iff {s : State} :
    (∀ x ∈ s.lanes, ∀ h ∈ x.occupants, h < Config.unitRecords)
      ↔ ∀ o ∈ s.lanes.map LaneSlot.occupants, ∀ h ∈ o, h < Config.unitRecords := by simp

theorem SameStow.tables {s t : State} (e : SameStow s t) (c : TablesCanonical s) : TablesCanonical t where
  records := e.records ▸ c.records
  decks := e.decks ▸ c.decks
  sections := e.sections ▸ c.sections
  segregation := e.segregation ▸ c.segregation
  ids := e.sections ▸ c.ids
  listed := e.records ▸ c.listed
  codes := e.segregation ▸ c.codes
  handles := e.records ▸ c.handles
  occupants := occupants_bounded_iff.2 (e.occupants ▸ occupants_bounded_iff.1 c.occupants)
  departures := e.departures ▸ c.departures
  offers := e.offers ▸ c.offers
  reservations := e.reservations ▸ c.reservations
  trials := e.trials ▸ c.trials

theorem SameMap.getRec {s t : State} (e : SameMap s t) (h : Handle) : getRec t h = getRec s h := getRec_congr e.records h

theorem SameMap.occupantsOf {s t : State} (e : SameMap s t) (l : Lane) : occupantsOf t l = occupantsOf s l :=
  occupantsOf_congr e.base e.occupants l

/-- Whether a mark has one holder is read from the records alone. -/
theorem oneHolder_congr {s t : State} (h : ∀ g, getRec t g = getRec s g) (o : OneHolder s) : OneHolder t := by
  unfold OneHolder at o ⊢; simpa only [h] using o

theorem WithinRooms.of_same {s t : State} (w : WithinRooms s) (ho : ∀ l, occupantsOf t l = occupantsOf s l)
    (h1 : t.offers = s.offers) (h2 : t.reservations = s.reservations) : WithinRooms t where
  occupants l := ho l ▸ w.occupants l
  offers := h1 ▸ w.offers
  commitments := by rw [h1, h2]; exact w.commitments

theorem SameMap.follows {s t : State} (e : SameMap s t) (h : Sound s) : Follows s t where
  agrees := h.agrees.of_same (fun g => by rw [e.getRec]; exact ⟨rfl, rfl⟩) e.occupantsOf e.offers e.reservations e.trials
    e.departures
  rooms := h.rooms.of_same e.occupantsOf e.offers e.reservations
  packed := pendingPacked_congr e.gaps e.occupantsOf fun g => by rw [e.getRec]
  order := reservationsInOrder_congr e.reservations fun g => by rw [e.getRec]
  holder := oneHolder_congr e.getRec

theorem Keeps.of_sameStow {V : Prop} {s t : State} (e : SameStow s t) (sizes : WithinSizes s → WithinSizes t) : Keeps V s t where
  symmetric h := by unfold SegregationSymmetric segGet at h ⊢; rw [e.segregation]; exact h
  tables := e.tables
  sizes _ := sizes
  map _ := e.toSameMap.follows

/-- Nothing that the conditions read changes. -/
structure Untouched (s t : State) : Prop extends SameStow s t where
  holds : t.holds = s.holds := by simp
  rxFwd : t.rxFwd = s.rxFwd := by simp
  rxRet : t.rxRet = s.rxRet := by simp
  log : t.log = s.log := by simp

theorem SameStow.sizes {s t : State} (e : SameStow s t) (w : WithinSizes s) (holds : HoldsLawful t.holds)
    (rxFwd : t.rxFwd.length ≤ Config.rxCapacity) (rxRet : t.rxRet.length ≤ Config.rxCapacity)
    (log : t.log.length ≤ Config.logCapacity) : WithinSizes t where
  lanes := by
    have := congrArg List.length e.occupants
    simp only [List.length_map] at this
    exact this ▸ w.lanes
  decks := e.decks ▸ w.decks
  rxFwd := rxFwd
  rxRet := rxRet
  log := log
  holds := holds
  trials := e.trials ▸ w.trials

theorem Untouched.keeps {V : Prop} {s t : State} (u : Untouched s t) : Keeps V s t :=
  .of_sameStow u.toSameStow fun w =>
    u.toSameStow.sizes w (u.holds ▸ w.holds) (u.rxFwd ▸ w.rxFwd) (u.rxRet ▸ w.rxRet) (u.log ▸ w.log)

theorem Keeps.refl {V : Prop} (s : State) : Keeps V s s := Untouched.keeps {}

theorem keeps_emitFwd {V : Prop} (s : State) (f : Frame) : Keeps V s (emitFwd s f) := Untouched.keeps {}
theorem keeps_emitRet {V : Prop} (s : State) (f : Frame) : Keeps V s (emitRet s f) := Untouched.keeps {}
theorem keeps_passDown {V : Prop} (s : State) (f : Frame) : Keeps V s (passDown s f) := Untouched.keeps {}
theorem keeps_passUp {V : Prop} (s : State) (f : Frame) : Keeps V s (passUp s f) := Untouched.keeps {}
theorem keeps_raiseNotice {V : Prop} (s : State) (n : Notice) : Keeps V s (raiseNotice s n) := Untouched.keeps {}
theorem keeps_emitAttention {V : Prop} (s : State) : Keeps V s (emitAttention s) := Untouched.keeps {}
theorem keeps_endReport {V : Prop} (s : State) : Keeps V s (endReport s) := Untouched.keeps {}

theorem keeps_endEvent {V : Prop} (s t : State) : Keeps V t (endEvent s t) := by
  unfold endEvent; split
  · exact keeps_emitAttention t
  · exact .refl t

theorem keeps_emitAllFwd {V : Prop} (fs : List Frame) (s : State) : Keeps V s (emitAllFwd fs s) := by
  rw [emitAllFwd_eq]; exact Untouched.keeps {}

theorem keeps_emitAllRet {V : Prop} (fs : List Frame) (s : State) : Keeps V s (emitAllRet fs s) := by
  rw [emitAllRet_eq]; exact Untouched.keeps {}

theorem keeps_emitDown {V : Prop} (s : State) (f : Option Frame) : Keeps V s (emitDown s f) := by
  unfold emitDown; split
  · exact .refl s
  · exact keeps_emitFwd s _

theorem keeps_testStability {V : Prop} (s : State) : Keeps V s (testStability s) := by
  unfold testStability; split
  · exact keeps_raiseNotice s _
  · exact .refl s

/-- A post keeps the log within its room (R176). -/
theorem keeps_post {V : Prop} (s : State) (k : ExcKind) (m : Option Mark) (l : Option Lane) (m2 : Option Mark)
    (d : Option ExcDetail) : Keeps V s (post s k m l m2 d) := by
  unfold post; split
  · rename_i room
    refine .of_sameStow {} fun w => SameStow.sizes {} w w.holds w.rxFwd w.rxRet ?_
    rw [List.length_append]; exact room
  · exact Untouched.keeps {}

theorem keeps_postLimit {V : Prop} (s : State) (m : Mark) (l : Lane) (f : List Check) : Keeps V s (postLimit s m l f) := by
  unfold postLimit; split
  · exact .refl s
  · exact keeps_post ..

theorem keeps_postOrder {V : Prop} (s : State) (m : Mark) (l : Lane) (rank : Nat) (a : Option UnitRec) :
    Keeps V s (postOrder s m l rank a) := by
  unfold postOrder; split
  · exact .refl s
  · split
    · exact keeps_post ..
    · exact .refl s

theorem keeps_postMoving {V : Prop} (s : State) (m : Mark) (l : Lane) : Keeps V s (postMoving s m l) := by
  unfold postMoving; split
  · exact .refl s
  · exact keeps_post ..

theorem keeps_judge {V : Prop} (s : State) (m : Mark) (l : Lane) (rank : Nat) (a : Option UnitRec) :
    Keeps V s (judge s m l rank a) :=
  ((keeps_postOrder ..).trans (keeps_postMoving ..)).trans (keeps_testStability _)

theorem keeps_postExitOrder {V : Prop} (b s : State) (h : Handle) (m : Mark) : Keeps V s (postExitOrder b s h m) := by
  unfold postExitOrder; split
  · exact keeps_post ..
  · exact .refl s

/-- A new hold list that is lawful where the old one was. -/
theorem keeps_holds {V : Prop} (s : State) (k : List HoldEntry) (h : HoldsLawful s.holds → HoldsLawful k) :
    Keeps V s { s with holds := k } :=
  .of_sameStow {} fun w => SameStow.sizes {} w (h w.holds) w.rxFwd w.rxRet w.log

/-- A change of slots that leaves the occupant lists as they are. -/
theorem keeps_modifySlot {V : Prop} (s : State) (l : Lane) (f : LaneSlot → LaneSlot) (h : ∀ x, (f x).occupants = x.occupants) :
    Keeps V s (modifySlot s l f) := by
  refine Untouched.keeps { occupants := ?_ }
  rw [modifySlot_lanes]; split
  · exact map_modify_same _ _ h _ _
  · rfl

theorem keeps_setSuspect {V : Prop} (s : State) (l : Lane) (b : Bool) : Keeps V s (setSuspect s l b) :=
  keeps_modifySlot s l _ fun _ => rfl

theorem keeps_setEntry {V : Prop} (s : State) (l : Lane) (e : Option LaneEntry) : Keeps V s (setEntry s l e) :=
  keeps_modifySlot s l _ fun _ => rfl

/-! ## Taking frames -/

/-- A frame leaves or joins a receive queue, which stays within its room (R183). -/
theorem keeps_setRxQueue {V : Prop} (s : State) (q : List Frame) (p : InPort)
    (h : (rxQueue s p).length ≤ Config.rxCapacity → q.length ≤ Config.rxCapacity) : Keeps V s (setRxQueue s q p) := by
  refine .of_sameStow {} fun w => ?_
  cases p with
  | fwd => exact SameStow.sizes {} w w.holds (h w.rxFwd) w.rxRet w.log
  | ret => exact SameStow.sizes {} w w.holds w.rxFwd (h w.rxRet) w.log

theorem keeps_arrive {V : Prop} (s : State) (p : InPort) (f : Frame) : Keeps V s (arrive s p f) := by
  unfold arrive; split
  · exact .refl s
  · split
    · rename_i room
      exact keeps_setRxQueue s _ p fun _ => by rw [List.length_append]; exact room
    · exact keeps_raiseNotice s _

end Sys2Proof.Machine

namespace Sys2Proof.Machine

/-! ## Canonical tables under the operations on records and lanes -/

theorem mem_modify_cases {α : Type} {f : α → α} {l : List α} {i : Nat} {x : α} (h : x ∈ l.modify i f) :
    x ∈ l ∨ ∃ y ∈ l, x = f y := by
  induction l generalizing i with
  | nil => cases i <;> simp at h
  | cons a l ih => cases i with
    | zero => simp at h ⊢; tauto
    | succ i =>
      simp only [List.modify_succ_cons, List.mem_cons] at h ⊢
      rcases h with rfl | h
      · exact .inl (.inl rfl)
      · rcases ih h with h | ⟨y, hy, e⟩
        · exact .inl (.inr h)
        · exact .inr ⟨y, .inr hy, e⟩

theorem occupantsOf_mem {s : State} {l : Lane} {h : Handle} (m : h ∈ occupantsOf s l) : ∃ x ∈ s.lanes, h ∈ x.occupants := by
  unfold occupantsOf slotOf at m
  split at m
  · cases e : s.lanes[l - s.rangeBase]? with
    | none => simp [e] at m
    | some x => exact ⟨x, List.mem_of_getElem? e, by simpa [e] using m⟩
  · simp at m

namespace TablesCanonical

variable {s : State} (c : TablesCanonical s)
include c

/-- A record that is not FREE stands at one of the 512 handles. -/
theorem lt_of_rec {h : Handle} (n : getRec s h ≠ freeRecord) : h < Config.unitRecords := by
  unfold getRec at n
  cases e : Table.find s.records h with
  | none => simp [e] at n
  | some r => exact c.handles _ (Table.find_mem e)

theorem lt_of_occupant {l : Lane} {h : Handle} (m : h ∈ occupantsOf s l) : h < Config.unitRecords := by
  obtain ⟨x, hx, hh⟩ := occupantsOf_mem m
  exact c.occupants x hx h hh

theorem setRec {h : Handle} (r : UnitRec) (lt : h < Config.unitRecords) : TablesCanonical (setRec s h r) :=
  { c with
    records := by
      rw [setRec_records]; split
      · exact Table.rising_drop c.records
      · exact Table.rising_put c.records
    listed := by
      rw [setRec_records]; split
      · exact fun e he => c.listed e (List.mem_filter.1 he).1
      · rename_i n
        intro e he
        rcases Table.mem_put he with rfl | he
        · exact n
        · exact c.listed e he
    handles := by
      rw [setRec_records]; split
      · exact fun e he => c.handles e (List.mem_filter.1 he).1
      · intro e he
        rcases Table.mem_put he with rfl | he
        · exact lt
        · exact c.handles e he }

/-- A record read may be written back changed, as long as a FREE one stays FREE. -/
theorem setRec_of_read {h : Handle} {r : UnitRec} (n : getRec s h = freeRecord → r = freeRecord) :
    TablesCanonical (Machine.setRec s h r) := by
  by_cases e : getRec s h = freeRecord
  · have gone : Machine.setRec s h r = { s with records := Table.drop h s.records } := by
      unfold Machine.setRec; rw [if_pos (n e)]
    rw [gone]
    exact
      { c with
        records := Table.rising_drop c.records
        listed := fun e he => c.listed e (List.mem_filter.1 he).1
        handles := fun e he => c.handles e (List.mem_filter.1 he).1 }
  · exact c.setRec r (c.lt_of_rec e)

theorem setOccupants (l : Lane) {o : List Handle} (lt : ∀ h ∈ o, h < Config.unitRecords) :
    TablesCanonical (setOccupants s l o) := by
  rw [setOccupants_only]
  refine { c with occupants := ?_ }
  intro x hx
  unfold Machine.setOccupants at hx
  rw [modifySlot_lanes] at hx
  split at hx
  · rcases mem_modify_cases hx with hx | ⟨y, -, rfl⟩
    · exact c.occupants x hx
    · exact lt
  · exact c.occupants x hx

omit c in
theorem packFrom (a : Int) (hs : List Handle) : ∀ (aft : Option Nat) {s : State}, TablesCanonical s →
    (∀ h ∈ hs, h < Config.unitRecords) → TablesCanonical (packFrom a aft hs s) := by
  induction hs with
  | nil => intro _ _ c _; exact c
  | cons h t ih =>
    intro aft s c lt
    exact ih _ (c.setRec _ (lt h List.mem_cons_self)) fun g hg => lt g (List.mem_cons_of_mem _ hg)

theorem compact (l : Lane) : TablesCanonical (compact s l) :=
  packFrom _ _ _ c fun _ hg => c.lt_of_occupant (List.mem_filter.1 hg).1

theorem listAtTail {h : Handle} (l : Lane) (lt : h < Config.unitRecords) : TablesCanonical (listAtTail s h l) := by
  unfold Machine.listAtTail; split
  · refine (c.setRec _ lt).setOccupants l fun g hg => ?_
    rcases List.mem_append.1 hg with hg | hg
    · exact c.lt_of_occupant hg
    · exact List.mem_singleton.1 hg ▸ lt
  · exact c

theorem placeAboard {h : Handle} (l : Lane) (lt : h < Config.unitRecords) : TablesCanonical (placeAboard s h l) := by
  refine ((c.setRec _ lt).setOccupants l fun g hg => ?_).compact l
  simp only [aboardPart, pendingPart, List.mem_append, List.mem_filter, List.mem_singleton] at hg
  rcases hg with (⟨hg, -⟩ | rfl) | ⟨hg, -⟩
  · exact c.lt_of_occupant hg
  · exact lt
  · exact c.lt_of_occupant hg

theorem listBehindAboard {h : Handle} (l : Lane) (lt : h < Config.unitRecords) : TablesCanonical (listBehindAboard s h l) := by
  unfold Machine.listBehindAboard; split
  · exact c.placeAboard l lt
  · exact c

theorem promote {h : Handle} (l : Lane) (lt : h < Config.unitRecords) : TablesCanonical (promote s h l) :=
  (c.setOccupants l fun _ hg => c.lt_of_occupant (List.mem_filter.1 hg).1).placeAboard l lt

theorem unlist (h : Handle) : TablesCanonical (unlist s h) := by
  unfold Machine.unlist; split
  · exact c
  · rename_i l e
    have lt : h < Config.unitRecords := c.lt_of_rec fun f => by rw [f] at e; cases e
    exact ((c.setRec _ lt).setOccupants l fun g hg => c.lt_of_occupant (List.mem_filter.1 hg).1).compact l

theorem freeRec (h : Handle) : TablesCanonical (freeRec s h) := by
  have u : TablesCanonical (if isLive (getRec s h).state then Machine.unlist s h else s) := by
    split
    · exact c.unlist h
    · exact c
  have w := u.setRec_of_read (h := h) (r := freeRecord) fun _ => rfl
  exact { w with departures := fun g hg => u.departures g (List.mem_filter.1 hg).1 }

theorem makeLeft {h : Handle} (lt : h < Config.unitRecords) : TablesCanonical (makeLeft s h) := by
  have w := (c.unlist h).setRec { getRec (Machine.unlist s h) h with
    state := .left, departureTime := some s.stowClock, changed := true } lt
  refine { w with departures := fun g hg => ?_ }
  rcases List.mem_append.1 hg with hg | hg
  · exact w.departures g hg
  · exact List.mem_singleton.1 hg ▸ lt

theorem joinReservations {h : Handle} (lt : h < Config.unitRecords) : TablesCanonical (joinReservations s h) := by
  refine { c.setRec { getRec s h with deadline := some (reservationTicks s) } lt with reservations := fun g hg => ?_ }
  rcases List.mem_cons.1 ((joinReservations_perm s h).subset hg) with rfl | hg
  · exact lt
  · exact c.reservations g (List.mem_filter.1 hg).1

theorem makeReserved {h : Handle} (lt : h < Config.unitRecords) : TablesCanonical (makeReserved s h) :=
  (c.setRec _ lt).joinReservations lt

theorem withdrawOffer (h : Handle) : TablesCanonical (withdrawOffer s h) :=
  freeRec (s := { s with offers := s.offers.filter (· != h) })
    { c with offers := fun g hg => c.offers g (List.mem_filter.1 hg).1 } h

theorem dropReservation (h : Handle) : TablesCanonical (dropReservation s h) :=
  freeRec (s := { s with reservations := s.reservations.filter (· != h) })
    { c with reservations := fun g hg => c.reservations g (List.mem_filter.1 hg).1 } h

omit c in
theorem freeAll (hs : List Handle) : ∀ {s : State}, TablesCanonical s → TablesCanonical (freeAll hs s) := by
  induction hs with
  | nil => intro _ c; exact c
  | cons h t ih => intro s c; exact ih (c.freeRec h)

/-- The choice of R27 is one of the 512 handles, and leaves the tables canonical. -/
theorem allocate {h : Handle} {t : State} (e : allocate s = some (h, t)) : h < Config.unitRecords ∧ TablesCanonical t := by
  unfold Machine.allocate at e
  split at e
  · rename_i g hg
    cases e
    unfold firstFree at hg
    split at hg
    · cases hg; rename_i lt; exact ⟨lt, c⟩
    · cases hg
  · split at e
    · cases e
    · rename_i g d hd
      cases e
      have lt : h < Config.unitRecords := c.departures h (hd ▸ List.mem_cons_self)
      exact ⟨lt, { c.setRec freeRecord lt with departures := fun g hg => c.departures g (hd ▸ List.mem_cons_of_mem _ hg) }⟩

/-- The record a mark finds is listed at its handle. -/
theorem getRec_of_mem {e : Nat × UnitRec} (m : e ∈ s.records) : getRec s e.1 = e.2 := by
  unfold getRec; rw [Table.find_of_mem c.records m]; rfl

end TablesCanonical

/-! ## Holders of a mark -/

/-- The record holds the mark (R24). -/
def HoldsMark (m : Mark) (r : UnitRec) : Prop := isHolder r.state = true ∧ recHasMark m r = true

theorem not_holdsMark_free (m : Mark) : ¬ HoldsMark m freeRecord := fun h => Bool.false_ne_true h.1

theorem findHolder_some {s : State} (c : TablesCanonical s) {m : Mark} {h : Handle} (e : findHolder s m = some h) :
    HoldsMark m (getRec s h) ∧ h < Config.unitRecords := by
  unfold findHolder at e
  obtain ⟨x, hx, rfl⟩ := Option.map_eq_some_iff.1 e
  have mem := List.mem_of_find?_eq_some hx
  have hp := List.find?_some hx
  rw [Bool.and_eq_true] at hp
  exact ⟨by rw [c.getRec_of_mem mem]; exact hp, c.handles _ mem⟩

theorem findHolder_none {s : State} {m : Mark} (e : findHolder s m = none) (g : Handle) : ¬ HoldsMark m (getRec s g) := by
  intro hm
  unfold getRec at hm
  cases hf : Table.find s.records g with
  | none => rw [hf] at hm; exact not_holdsMark_free m hm
  | some r =>
    rw [hf] at hm
    unfold findHolder at e
    have := List.find?_eq_none.1 (Option.map_eq_none_iff.1 e) _ (Table.find_mem hf)
    exact this (by rw [Bool.and_eq_true]; exact hm)

/-- One holder at most stays so where no record comes to hold a mark that it did not hold. -/
theorem OneHolder.of_sub {s t : State} (o : OneHolder s) (h : ∀ m g, HoldsMark m (getRec t g) → HoldsMark m (getRec s g)) :
    OneHolder t := by
  intro m a b ha hb ma mb
  obtain ⟨ha, ma⟩ := h m a ⟨ha, ma⟩
  obtain ⟨hb, mb⟩ := h m b ⟨hb, mb⟩
  exact o m a b ha hb ma mb

/-- One record may come to hold marks that no other record holds afterwards. -/
theorem OneHolder.of_new {s t : State} (o : OneHolder s) (n : Handle)
    (h : ∀ m g, g ≠ n → HoldsMark m (getRec t g) → HoldsMark m (getRec s g))
    (new : ∀ m, HoldsMark m (getRec t n) → ∀ g, g ≠ n → ¬ HoldsMark m (getRec t g)) : OneHolder t := by
  intro m a b ha hb ma mb
  by_cases an : a = n
  · by_contra ne
    subst an
    exact new m ⟨ha, ma⟩ b (Ne.symm ne) ⟨hb, mb⟩
  · by_cases bn : b = n
    · subst bn
      exact absurd ⟨ha, ma⟩ (new m ⟨hb, mb⟩ a an)
    · obtain ⟨ha, ma⟩ := h m a an ⟨ha, ma⟩
      obtain ⟨hb, mb⟩ := h m b bn ⟨hb, mb⟩
      exact o m a b ha hb ma mb

/-- Whether a record holds a mark depends on its state and its description. -/
theorem HoldsMark.congr {m : Mark} {r r' : UnitRec} (hs : r'.state = r.state) (hd : r'.desc = r.desc) :
    HoldsMark m r' ↔ HoldsMark m r := by unfold HoldsMark recHasMark; rw [hs, hd]

/-! ## Listing -/

/-- Every listed record names the lane that lists it, and no list repeats a handle. -/
structure ListedOnce (s : State) : Prop where
  home : ∀ l g, g ∈ occupantsOf s l → (getRec s g).lane = some l
  once : ∀ l, (occupantsOf s l).Nodup

theorem MapAgrees.listedOnce {s : State} (m : MapAgrees s) : ListedOnce s := ⟨fun l g h => ((m.listed l g).1 h).2, m.once⟩

/-- A record that is not live is listed nowhere. -/
theorem MapAgrees.not_listed {s : State} (m : MapAgrees s) {h : Handle} (n : isLive (getRec s h).state = false) (l : Lane) :
    h ∉ occupantsOf s l := fun hm => by
  rw [((m.listed l h).1 hm).1] at n; cases n

/-- The pending part of one lane stands packed behind its ABOARD part (R32). -/
def LanePacked (s : State) (l : Lane) : Prop :=
  packedBehind s (aftOf s (aboardPart s (occupantsOf s l))) (pendingPart s (occupantsOf s l)) = true

/-- Whether a lane is packed depends on the gaps, its list and what packing reads of the records listed. -/
theorem LanePacked.congr {s t : State} {l : Lane} (p : LanePacked s l) (hg : t.gaps = s.gaps)
    (ho : occupantsOf t l = occupantsOf s l) (hk : ∀ g ∈ occupantsOf s l, packKey (getRec t g) = packKey (getRec s g)) :
    LanePacked t l := by
  unfold LanePacked at p ⊢
  obtain ⟨a, b⟩ := filter_congr_aboard (s := s) (t := t) (o := occupantsOf s l) fun g hg => isAboard_congr (hk g hg)
  have part : ∀ g ∈ aboardPart s (occupantsOf s l), packKey (getRec t g) = packKey (getRec s g) :=
    fun g hg => hk g (List.mem_filter.1 hg).1
  have rest : ∀ g ∈ pendingPart s (occupantsOf s l), packKey (getRec t g) = packKey (getRec s g) :=
    fun g hg => hk g (List.mem_filter.1 hg).1
  rw [ho, a, b, aftOf_congr part, packedBehind_congr hg _ _ rest]
  exact p

/-- The reservation list keeps its order where members leave it and no deadline on it changes. -/
theorem ReservationsInOrder.of_sublist {s t : State} (o : ReservationsInOrder s) (sub : t.reservations.Sublist s.reservations)
    (d : ∀ g ∈ t.reservations, (getRec t g).deadline = (getRec s g).deadline) : ReservationsInOrder t := by
  unfold ReservationsInOrder ticksLeft at *
  exact (o.sublist sub).imp_of_mem fun ha hb h => by rw [d _ ha, d _ hb]; exact h

end Sys2Proof.Machine

namespace Sys2Proof.Machine

/-! ## Unlisting -/

theorem unlist_occupants {s : State} (lo : ListedOnce s) (h : Handle) (m : Lane) :
    occupantsOf (unlist s h) m = (occupantsOf s m).filter (· != h) := by
  cases e : (getRec s h).lane with
  | none =>
    have same : unlist s h = s := by unfold unlist; rw [e]
    rw [same, filter_ne_self]
    intro hm; have := lo.home m h hm; rw [e] at this; cases this
  | some l =>
    obtain ⟨-, own, others, -⟩ := unlist_spec s h l e
    by_cases ml : m = l
    · rw [ml]; exact own
    · rw [occupantsOf_of_slot (others m ml), filter_ne_self]
      intro hm; have := lo.home m h hm; rw [e] at this; cases this; exact ml rfl

theorem ListedOnce.unlist {s : State} (lo : ListedOnce s) (h : Handle) : ListedOnce (unlist s h) where
  home m g hg := by
    rw [unlist_occupants lo] at hg
    obtain ⟨o, c, k, e⟩ := unlist_eta s h g
    rw [e]; exact lo.home m g (List.mem_filter.1 hg).1
  once m := by rw [unlist_occupants lo]; exact (lo.once m).filter _

/-- Unlisting leaves every lane packed (R32, R42). -/
theorem PendingPacked.unlist {s : State} (p : PendingPacked s) (lo : ListedOnce s) (h : Handle) :
    PendingPacked (Machine.unlist s h) := by
  cases e : (getRec s h).lane with
  | none => unfold Machine.unlist; rw [e]; exact p
  | some l =>
    obtain ⟨-, own, others, -, off, -⟩ := unlist_spec s h l e
    intro m
    by_cases ml : m = l
    · subst ml
      have nd : (occupantsOf (Machine.unlist s h) m).Nodup := (lo.unlist h).once m
      have c : Machine.unlist s h = compact (setOccupants (Machine.setRec s h { getRec s h with offset := none, centre := none }) m
          ((occupantsOf s m).filter (· != h))) m := by
        unfold Machine.unlist; rw [e]; rfl
      rw [c, compact_occupantsOf] at nd
      rw [c]; exact compact_packs nd
    · refine LanePacked.congr (s := s) (p m) (sameProfile_unlist s h).gaps (occupantsOf_of_slot (others m ml)) fun g hg => ?_
      have home := lo.home m g hg
      have gh : g ≠ h := by rintro rfl; rw [home] at e; cases e; exact ml rfl
      rw [off g gh fun x => ml (by have := lo.home l g x; rw [home] at this; cases this; rfl)]

/-! ## Records that are listed nowhere -/

theorem ListedOnce.setRec {s : State} (lo : ListedOnce s) {h : Handle} (r : UnitRec) (n : ∀ l, h ∉ occupantsOf s l) :
    ListedOnce (setRec s h r) where
  home l g hg := by
    rw [getRec_setRec_other _ _ (by rintro rfl; exact n l hg)]
    exact lo.home l g hg
  once := lo.once

theorem PendingPacked.setRec {s : State} (p : PendingPacked s) {h : Handle} (r : UnitRec) (n : ∀ l, h ∉ occupantsOf s l) :
    PendingPacked (setRec s h r) := fun l =>
  LanePacked.congr (p l) rfl rfl fun g hg => by rw [getRec_setRec_other _ _ (by rintro rfl; exact n l hg)]

/-! ## Listing at the tail -/

/-- All that a listing at the tail that is taken can do (R39). -/
theorem listAtTail_spec {s : State} {h : Handle} {l : Lane} (room : hasRoom s l = true) :
    let t := listAtTail s h l
    let offset := offsetBehind s (aftOf s (occupantsOf s l)) (recKind (getRec s h))
    occupantsOf t l = occupantsOf s l ++ [h]
      ∧ (∀ m, m ≠ l → occupantsOf t m = occupantsOf s m)
      ∧ getRec t h = { getRec s h with
          lane := some l, offset := some offset, centre := some (centreArm (stopArmOf s l) offset (recLength (getRec s h)))
          changed := true }
      ∧ (∀ g, g ≠ h → getRec t g = getRec s g) := by
  dsimp only
  unfold listAtTail; rw [if_pos room]; dsimp only
  refine ⟨?_, fun m ml => ?_, ?_, fun g hg => ?_⟩
  · exact occupantsOf_setOccupants _ _ (hasRoom_slot room)
  · rw [occupantsOf_setOccupants_other _ _ ml]; rfl
  · rw [getRec_setOccupants, getRec_setRec_self]
  · rw [getRec_setOccupants, getRec_setRec_other _ _ hg]

theorem packedBehind_snoc {s : State} {x : Handle} (hs : List Handle) : ∀ aft : Option Nat,
    packedBehind s aft (hs ++ [x]) = true ↔ packedBehind s aft hs = true
      ∧ (getRec s x).offset = some (offsetBehind s ((aftOf s hs).or aft) (recKind (getRec s x))) := by
  induction hs with
  | nil => intro aft; simp [packedBehind, aftOf]
  | cons h t ih =>
    intro aft
    have last : (aftOf s (h :: t)).or aft = (aftOf s t).or (some (recAft (getRec s h))) := by
      unfold aftOf
      cases t with
      | nil => rfl
      | cons g t => rw [List.getLast?_cons_cons, List.getLast?_cons]; rfl
    rw [List.cons_append]; unfold packedBehind
    rw [Bool.and_eq_true, Bool.and_eq_true, ih, last, and_assoc]

/-- In a list whose ABOARD occupants stand ahead, the last of all is the last pending one, or else the last ABOARD one. -/
theorem aftOf_parts {s : State} {o : List Handle} (f : AboardFirst s o) :
    aftOf s o = (aftOf s (pendingPart s o)).or (aftOf s (aboardPart s o)) := by
  have e := aboardFirst_iff.2 f
  unfold aftOf
  conv_lhs => rw [e, List.getLast?_append]
  cases (pendingPart s o).getLast? <;> rfl

theorem listAtTail_parts {s : State} {h : Handle} {l : Lane} (room : hasRoom s l = true) (n : h ∉ occupantsOf s l)
    (pend : isAboard s h = false) :
    aboardPart (listAtTail s h l) (occupantsOf (listAtTail s h l) l) = aboardPart s (occupantsOf s l)
      ∧ pendingPart (listAtTail s h l) (occupantsOf (listAtTail s h l) l) = pendingPart s (occupantsOf s l) ++ [h] := by
  obtain ⟨ho, -, hh, hr⟩ := listAtTail_spec (h := h) room
  have a : ∀ g ∈ occupantsOf s l, isAboard (listAtTail s h l) g = isAboard s g := fun g hg => by
    unfold isAboard; rw [hr g (by rintro rfl; exact n hg)]
  have b : isAboard (listAtTail s h l) h = false := by rw [← pend]; unfold isAboard; rw [hh]
  obtain ⟨p, q⟩ := filter_congr_aboard a
  rw [ho]
  unfold aboardPart pendingPart at *
  rw [List.filter_append, List.filter_append, p, q]
  simp [b]

/-- A listing at the tail of a lane whose ABOARD occupants stand ahead leaves every lane packed (R30, R39). -/
theorem PendingPacked.listAtTail {s : State} (p : PendingPacked s) {h : Handle} {l : Lane} (room : hasRoom s l = true)
    (n : ∀ m, h ∉ occupantsOf s m) (f : AboardFirst s (occupantsOf s l)) (pend : isAboard s h = false) :
    PendingPacked (listAtTail s h l) := by
  obtain ⟨-, others, hh, hr⟩ := listAtTail_spec (h := h) room
  have gaps := (sameProfile_listAtTail s h l).gaps
  have keep : ∀ m, ∀ g ∈ occupantsOf s m, packKey (getRec (Machine.listAtTail s h l) g) = packKey (getRec s g) := fun m g hg => by
    rw [hr g (by rintro rfl; exact n m hg)]
  intro m
  by_cases ml : m = l
  · subst ml
    obtain ⟨ea, ep⟩ := listAtTail_parts room (n m) pend
    have ka : ∀ g ∈ aboardPart s (occupantsOf s m), packKey (getRec (Machine.listAtTail s h m) g) = packKey (getRec s g) :=
      fun g hg => keep m g (List.mem_filter.1 hg).1
    have kp : ∀ g ∈ pendingPart s (occupantsOf s m), packKey (getRec (Machine.listAtTail s h m) g) = packKey (getRec s g) :=
      fun g hg => keep m g (List.mem_filter.1 hg).1
    rw [ea, ep, packedBehind_snoc, aftOf_congr ka, aftOf_congr kp, packedBehind_congr gaps _ _ kp, ← aftOf_parts f, hh]
    refine ⟨p m, ?_⟩
    unfold offsetBehind; rw [gaps]; rfl
  · exact LanePacked.congr (p m) gaps (others m ml) (keep m)

/-! ## Placing ABOARD -/

/-- A placement changes another record in offset, centre arm and CHANGED alone. -/
theorem placeAboard_eta {s : State} {h : Handle} {l : Lane} (n : h ∉ occupantsOf s l) (x : (slotOf s l).isSome = true)
    {g : Handle} (hg : g ≠ h) :
    ∃ o c k, getRec (placeAboard s h l) g = { getRec s g with offset := o, centre := c, changed := k } :=
  (placeAboard_packs s h l n x).1 g hg

theorem placeAboard_isAboard {s : State} {h : Handle} {l : Lane} (n : h ∉ occupantsOf s l) (x : (slotOf s l).isSome = true)
    (g : Handle) : isAboard (placeAboard s h l) g = if g = h then true else isAboard s g := by
  unfold isAboard
  split
  · rename_i e; subst e; rw [(placeAboard_spec s g l x).2.1]; rfl
  · rename_i e; obtain ⟨o, c, k, e⟩ := placeAboard_eta n x e; rw [e]

/-- Placing ABOARD packs its own lane, and leaves the others packed (R32, R40, R41). -/
theorem placeAboard_packed {s : State} {h : Handle} {l : Lane} (lo : ListedOnce s) (n : ∀ m, h ∉ occupantsOf s m)
    (x : (slotOf s l).isSome = true) (p : ∀ m, m ≠ l → LanePacked s m) : PendingPacked (placeAboard s h l) := by
  obtain ⟨ho, -, -, off, others⟩ := placeAboard_spec s h l x
  intro m
  by_cases ml : m = l
  · subst ml
    have ab : ∀ g ∈ aboardPart s (occupantsOf s m) ++ [h], isAboard (placeAboard s h m) g = true := fun g hg => by
      rw [placeAboard_isAboard (n m) x]; split
      · rfl
      · rename_i gh
        rcases List.mem_append.1 hg with hg | hg
        · exact (List.mem_filter.1 hg).2
        · exact absurd (List.mem_singleton.1 hg) gh
    have pend : ∀ g ∈ pendingPart s (occupantsOf s m), isAboard (placeAboard s h m) g = false := fun g hg => by
      obtain ⟨mem, np⟩ := List.mem_filter.1 hg
      rw [placeAboard_isAboard (n m) x, if_neg (by rintro rfl; exact n m mem)]
      simpa using np
    obtain ⟨ea, ep⟩ := parts_of_append ho ab pend
    rw [ea, ep]
    exact ((placeAboard_packs s h m (n m) x).2 (lo.once m)).1
  · refine LanePacked.congr (p m ml) (sameProfile_placeAboard s h l).gaps (occupantsOf_of_slot (others m ml)) fun g hg => ?_
    rw [off g (by rintro rfl; exact n m hg) fun hx => ml (by
      have a := lo.home m g hg; rw [lo.home l g hx] at a; cases a; rfl)]

/-- Agreement where one record comes ABOARD: `x` is the state just before the placement, and differs from a state `y` of
agreeing map and lists at that record alone, which is unlisted and off every list. -/
theorem MapAgrees.placeAboard {x y : State} {h : Handle} {l : Lane} (m : MapAgrees y)
    (keep : ∀ g, g ≠ h → (getRec x g).state = (getRec y g).state ∧ (getRec x g).lane = (getRec y g).lane)
    (occ : ∀ k, occupantsOf x k = (occupantsOf y k).filter (· != h)) (slot : (slotOf x l).isSome = true)
    (offers : x.offers = y.offers.filter (· != h)) (reservations : x.reservations = y.reservations.filter (· != h))
    (trials : x.trials = y.trials.filter (· != h)) (departures : x.departures = y.departures.filter (· != h)) :
    MapAgrees (placeAboard x h l) := by
  have n : ∀ k, h ∉ occupantsOf x k := fun k => by rw [occ]; simp
  obtain ⟨ho, hh, -, -, others⟩ := placeAboard_spec x h l slot
  have only := placeAboard_only x h l
  have parts : ∀ g ∈ occupantsOf y l, g ≠ h → isAboard x g = isAboard y g := fun g _ gh => by
    unfold isAboard; rw [(keep g gh).1]
  have perm : (occupantsOf (Machine.placeAboard x h l) l).Perm (h :: occupantsOf x l) := by
    rw [ho, List.append_assoc]
    refine List.perm_middle.trans (List.Perm.cons _ ?_)
    exact List.filter_append_perm (isAboard x) (occupantsOf x l)
  apply m.of_one h
  · intro g gh
    obtain ⟨o, c, k, e⟩ := placeAboard_eta (n l) slot gh
    rw [e]; exact keep g gh
  · rw [hh]; intro _; simp [aboardRecord]
  · intro k
    rw [hh]
    by_cases kl : k = l
    · subst kl
      refine ⟨fun g gh => ?_, ?_, ?_⟩
      · rw [perm.mem_iff, occ]; simp [gh]
      · rw [perm.mem_iff]; simp [aboardRecord, isLive]
      · rw [perm.nodup_iff, List.nodup_cons, occ]
        exact ⟨by simp, (m.once k).filter _⟩
    · rw [occupantsOf_of_slot (others k kl), occ]
      exact DiffersAt.filter (m.once k) (by simp [aboardRecord, Ne.symm kl])
  · intro k
    by_cases kl : k = l
    · subst kl
      rw [ho]
      refine ⟨_, _, rfl, fun g hg => ?_, fun g hg => ?_⟩
      · rw [placeAboard_isAboard (n k) slot]; split
        · rfl
        · rename_i gh
          rcases List.mem_append.1 hg with hg | hg
          · exact (List.mem_filter.1 hg).2
          · exact absurd (List.mem_singleton.1 hg) gh
      · obtain ⟨mem, np⟩ := List.mem_filter.1 hg
        rw [placeAboard_isAboard (n k) slot, if_neg (by rintro rfl; exact n k mem)]
        simpa using np
    · rw [occupantsOf_of_slot (others k kl), occ]
      refine ((m.aboardFirst k).filter _).congr fun g hg => ?_
      have gh : g ≠ h := by simpa using (List.mem_filter.1 hg).2
      rw [placeAboard_isAboard (n l) slot, if_neg gh]
      unfold isAboard; rw [(keep g gh).1]
  · rw [hh, only]; exact offers ▸ DiffersAt.filter m.distinct.1 (by simp [aboardRecord])
  · rw [hh, only]; exact reservations ▸ DiffersAt.filter m.distinct.2.1 (by simp [aboardRecord])
  · rw [hh, only]; exact trials ▸ DiffersAt.filter m.distinct.2.2.1 (by simp [aboardRecord])
  · rw [hh, only]; exact departures ▸ DiffersAt.filter m.distinct.2.2.2 (by simp [aboardRecord])

end Sys2Proof.Machine

namespace Sys2Proof.Machine

/-- An operation that writes records, occupant lists and the four lists of handles alone. -/
theorem Keeps.of_profile {V : Prop} {s t : State} (p : SameProfile s t)
    (trials : WithinSizes s → t.trials.length ≤ Config.trialCapacity) (tables : TablesCanonical s → TablesCanonical t)
    (map : V → Sound s → Follows s t) : Keeps V s t where
  symmetric := p.symmetric
  tables := tables
  sizes _ w := p.sizes w (trials w)
  map := map

/-! ## Freeing -/

/-- Freeing a record that is not live unlists nothing (R23). -/
theorem freeRec_dead {s : State} {h : Handle} (e : isLive (getRec s h).state = false) :
    freeRec s h = { setRec s h freeRecord with departures := s.departures.filter (· != h) } := by
  unfold freeRec; simp only [e, Bool.false_eq_true, if_false]


theorem offLists_profile (s : State) (h : Handle) : SameProfile s (offLists s h) := by unfold offLists; exact {}

/-- Freeing leaves every lane packed. -/
theorem PendingPacked.freeRec {s : State} (p : PendingPacked s) (lo : ListedOnce s) {h : Handle}
    (dead : isLive (getRec s h).state = false → ∀ l, h ∉ occupantsOf s l) : PendingPacked (freeRec s h) := by
  have off : PendingPacked (if isLive (getRec s h).state then Machine.unlist s h else s)
      ∧ ∀ l, h ∉ occupantsOf (if isLive (getRec s h).state then Machine.unlist s h else s) l := by
    split
    · exact ⟨p.unlist lo h, fun l => by rw [unlist_occupants lo]; simp⟩
    · rename_i nl
      exact ⟨p, dead (by simpa using nl)⟩
  have freed := off.1.setRec freeRecord off.2
  exact pendingPacked_congr (by rfl) (fun _ => by rfl) (fun _ => by rfl) freed

/-- Any record of a sound state may be freed and taken off its list. -/
theorem follows_free {s : State} (sd : Sound s) (h : Handle) : Follows s (freeRec (offLists s h) h) := by
  have only := freeRec_only (offLists s h) h
  have keep : ∀ g, g ≠ h → _ := fun g gh => freeRec_keep (offLists s h) h g gh
  refine
    { agrees := sd.agrees.free h
      rooms := ⟨fun l => ?_, ?_, ?_⟩
      packed := fun p => PendingPacked.freeRec (s := offLists s h)
        (pendingPacked_congr (s := s) rfl (fun _ => rfl) (fun _ => rfl) p) ⟨sd.agrees.listedOnce.home, sd.agrees.once⟩
        sd.agrees.not_listed
      order := fun o => o.of_sublist ?_ fun g hg => ?_
      holder := fun o => o.of_sub fun m g hm => ?_ }
  · rw [freeRec_occupants (s := offLists s h) h (fun l hm => (sd.agrees.listed l h).1 hm)]
    exact (List.length_filter_le ..).trans (sd.rooms.occupants l)
  · rw [only]; exact (List.length_filter_le ..).trans sd.rooms.offers
  · rw [only]
    exact (Nat.add_le_add (List.length_filter_le ..) (List.length_filter_le ..)).trans sd.rooms.commitments
  · rw [only]; exact List.filter_sublist
  · have gh : g ≠ h := by rw [only] at hg; simpa using (List.mem_filter.1 hg).2
    obtain ⟨o, c, k, e⟩ := freeRec_eta (offLists s h) h g gh
    rw [e]; rfl
  · by_cases gh : g = h
    · rw [gh, freeRec_self] at hm; exact absurd hm (not_holdsMark_free m)
    · exact (HoldsMark.congr (keep g gh).1 (keep g gh).2.2).1 hm

/-- A record is freed, taken off its list first. -/
theorem keeps_free {V : Prop} {s x : State} {h : Handle} (off : V → Sound s → offLists s h = x) (profile : SameProfile s x)
    (trials : x.trials.length ≤ s.trials.length) (tables : TablesCanonical s → TablesCanonical x) : Keeps V s (freeRec x h) := by
  refine .of_profile (profile.trans (sameProfile_freeRec x h)) (fun w => ?_) (fun c => (tables c).freeRec h) fun v sd => ?_
  · rw [freeRec_only]; exact trials.trans w.trials
  · rw [← off v sd]; exact follows_free sd h

theorem keeps_withdrawListed {V : Prop} {s : State} {h : Handle} (e : V → Sound s → (getRec s h).state = .offered) :
    Keeps V s (withdrawOffer s h) :=
  keeps_free (fun v sd => offLists_offer sd.agrees (e v sd)) (sameProfile_offers s _) (Nat.le_refl _)
    fun c => { c with offers := fun g hg => c.offers g (List.mem_filter.1 hg).1 }

theorem keeps_withdrawOffer {V : Prop} {s : State} {h : Handle} (e : (getRec s h).state = .offered) :
    Keeps V s (withdrawOffer s h) := keeps_withdrawListed fun _ _ => e

theorem keeps_dropReservation {V : Prop} {s : State} {h : Handle} (e : (getRec s h).state = .reserved) :
    Keeps V s (dropReservation s h) :=
  keeps_free (fun _ sd => offLists_res sd.agrees e) (sameProfile_reservations s _) (Nat.le_refl _)
    fun c => { c with reservations := fun g hg => c.reservations g (List.mem_filter.1 hg).1 }

theorem keeps_freeLeft {V : Prop} {s : State} {h : Handle} (e : (getRec s h).state = .left) : Keeps V s (freeRec s h) :=
  keeps_free (fun _ sd => offLists_none sd.agrees (.inr (.inl e))) (.refl s) (Nat.le_refl _) id

/-- A list without its first member, which it holds once. -/
theorem filter_ne_head {l rest : List Handle} {h : Handle} (e : l = h :: rest) (nd : l.Nodup) : l.filter (· != h) = rest := by
  rw [e, List.nodup_cons] at nd
  rw [e, List.filter_cons_of_neg (by simp), filter_ne_self nd.1]

theorem keeps_freeOffer {V : Prop} {s : State} {h : Handle} {rest : List Handle} (l : s.offers = h :: rest) :
    Keeps V s (freeRec { s with offers := rest } h) :=
  keeps_free
    (fun _ sd => by
      rw [offLists_offer sd.agrees ((sd.agrees.offered h).1 (l ▸ List.mem_cons_self)), filter_ne_head l sd.agrees.distinct.1])
    (sameProfile_offers s _) (Nat.le_refl _) fun c => { c with offers := fun g hg => c.offers g (l ▸ List.mem_cons_of_mem _ hg) }

theorem keeps_freeReservation {V : Prop} {s : State} {h : Handle} {rest : List Handle} (l : s.reservations = h :: rest) :
    Keeps V s (freeRec { s with reservations := rest } h) :=
  keeps_free
    (fun _ sd => by
      rw [offLists_res sd.agrees ((sd.agrees.reserved h).1 (l ▸ List.mem_cons_self)),
        filter_ne_head l sd.agrees.distinct.2.1])
    (sameProfile_reservations s _) (Nat.le_refl _)
    fun c => { c with reservations := fun g hg => c.reservations g (l ▸ List.mem_cons_of_mem _ hg) }

theorem keeps_freeTrial {V : Prop} {s : State} {h : Handle} {rest : List Handle} (l : s.trials = h :: rest) :
    Keeps V s (freeRec { s with trials := rest } h) :=
  keeps_free
    (fun _ sd => by
      rw [offLists_trial sd.agrees ((sd.agrees.trial h).1 (l ▸ List.mem_cons_self)),
        filter_ne_head l sd.agrees.distinct.2.2.1])
    (sameProfile_trials s _) (l ▸ Nat.le_succ _)
    fun c => { c with trials := fun g hg => c.trials g (l ▸ List.mem_cons_of_mem _ hg) }

/-- The lists are no matter to the freeing of a record. -/
theorem packFrom_lists (a : Int) (hs : List Handle) : ∀ (aft : Option Nat) (s : State) (o r t : List Handle),
    packFrom a aft hs { s with offers := o, reservations := r, trials := t }
      = { packFrom a aft hs s with offers := o, reservations := r, trials := t } := by
  induction hs with
  | nil => intros; rfl
  | cons h hs ih => intro aft s o r t; exact ih _ (setRec s h _) o r t

theorem setOccupants_lists (s : State) (l : Lane) (x o r t : List Handle) :
    setOccupants { s with offers := o, reservations := r, trials := t } l x
      = { setOccupants s l x with offers := o, reservations := r, trials := t } := by
  unfold setOccupants modifySlot; dsimp only; split <;> rfl

theorem compact_lists (s : State) (l : Lane) (o r t : List Handle) :
    compact { s with offers := o, reservations := r, trials := t } l
      = { compact s l with offers := o, reservations := r, trials := t } :=
  packFrom_lists (stopArmOf s l) (pendingPart s (occupantsOf s l)) (aftOf s (aboardPart s (occupantsOf s l))) s o r t

theorem unlist_lists (s : State) (h : Handle) (o r t : List Handle) :
    unlist { s with offers := o, reservations := r, trials := t } h
      = { unlist s h with offers := o, reservations := r, trials := t } := by
  unfold unlist
  have e : getRec { s with offers := o, reservations := r, trials := t } h = getRec s h := rfl
  rw [e]
  split
  · rfl
  · rename_i l _
    have list := setOccupants_lists (setRec s h { getRec s h with offset := none, centre := none }) l
      ((occupantsOf s l).filter (· != h)) o r t
    exact (congrArg (compact · l) list).trans (compact_lists _ l o r t)

theorem freeRec_lists (s : State) (h : Handle) (o r t : List Handle) :
    freeRec { s with offers := o, reservations := r, trials := t } h
      = { freeRec s h with offers := o, reservations := r, trials := t } := by
  unfold freeRec
  have e : getRec { s with offers := o, reservations := r, trials := t } h = getRec s h := rfl
  rw [e, unlist_lists]
  split <;> rfl

/-! ## The reservation list -/

theorem deadline_join_other (s : State) {h g : Handle} (gh : g ≠ h) :
    ticksLeft (joinReservations s h) g = ticksLeft s g := by unfold ticksLeft; rw [joinReservations_other _ gh]

/-- Where a sorted list is cut at a bound, what follows the cut is no less than the bound. -/
theorem le_of_mem_dropWhile {f : Handle → Nat} {d : Nat} {l : List Handle} (o : l.Pairwise fun a b => f a ≤ f b) :
    ∀ g ∈ l.dropWhile (fun g => decide (f g ≤ d)), d ≤ f g := by
  induction l with
  | nil => simp
  | cons a l ih =>
    rw [List.pairwise_cons] at o
    rw [List.dropWhile_cons]
    split
    · exact ih o.2
    · rename_i n
      have first : d < f a := by simpa using n
      intro g hg
      rcases List.mem_cons.1 hg with rfl | hg
      · exact first.le
      · exact first.le.trans (o.1 g hg)

/-- A member put in behind every member whose deadline is no later stands in order (R97). -/
theorem joinBehind_ordered {s : State} {f : Handle → Nat} {h : Handle} {l : List Handle}
    (eq : ∀ g ∈ l, ticksLeft s g = f g) (o : l.Pairwise fun a b => f a ≤ f b) :
    (joinBehind s h (f h) l).Pairwise fun a b => f a ≤ f b := by
  set early := l.takeWhile fun g => decide ((getRec s g).deadline.getD 0 ≤ f h) with he
  have cut : l.takeWhile (fun g => decide (f g ≤ f h)) = early := by
    rw [he]; clear he early o
    induction l with
    | nil => rfl
    | cons a l ih =>
      have same : (getRec s a).deadline.getD 0 = f a := eq a List.mem_cons_self
      rw [List.takeWhile_cons, List.takeWhile_cons, same, ih fun g hg => eq g (List.mem_cons_of_mem _ hg)]
  have parts : early ++ l.dropWhile (fun g => decide (f g ≤ f h)) = l := cut ▸ List.takeWhile_append_dropWhile
  have rest : l.drop early.length = l.dropWhile fun g => decide (f g ≤ f h) := by
    conv_lhs => rw [← parts]
    exact List.drop_left
  have before : ∀ g ∈ early, f g ≤ f h := fun g hg => by
    rw [← cut] at hg; simpa using List.mem_takeWhile_imp hg
  have behind := le_of_mem_dropWhile (d := f h) o
  have sorted := o
  rw [← parts, List.pairwise_append] at sorted
  obtain ⟨s1, s2, s12⟩ := sorted
  unfold joinBehind
  rw [← he]; dsimp only; rw [rest, List.append_assoc, List.pairwise_append]
  refine ⟨s1, List.pairwise_cons.2 ⟨behind, s2⟩, fun a ha b hb => ?_⟩
  rcases List.mem_cons.1 hb with rfl | hb
  · exact before a ha
  · exact s12 a ha b hb

/-- Joining the reservation list keeps its order (R97, R98). -/
theorem joinReservations_order {s : State} (h : Handle)
    (o : (s.reservations.filter (· != h)).Pairwise fun a b => ticksLeft s a ≤ ticksLeft s b) :
    ReservationsInOrder (joinReservations s h) := by
  have self : ticksLeft (joinReservations s h) h = reservationTicks s := by unfold ticksLeft; rw [joinReservations_rec]; rfl
  have other : ∀ g ∈ s.reservations.filter (· != h), ticksLeft s g = ticksLeft (joinReservations s h) g := fun g hg =>
    (deadline_join_other s (by simpa using (List.mem_filter.1 hg).2)).symm
  have o' := o.imp_of_mem (S := fun a b => ticksLeft (joinReservations s h) a ≤ ticksLeft (joinReservations s h) b)
    fun ha hb le => by rw [← other _ ha, ← other _ hb]; exact le
  have := joinBehind_ordered other o' (h := h)
  rw [self] at this
  exact this

/-- What joining the reservation list does to the list and the records, for the agreement of map and lists. -/
theorem joinReservations_differs {s : State} (h : Handle) {P : Prop} (nd : s.reservations.Nodup) (p : P) :
    DiffersAt s.reservations (joinReservations s h).reservations h P := by
  have perm := joinReservations_perm s h
  refine ⟨fun g gh => ?_, ?_, ?_⟩
  · rw [perm.mem_iff]; simp [gh]
  · rw [perm.mem_iff]; simp [p]
  · rw [perm.nodup_iff, List.nodup_cons]; exact ⟨by simp, nd.filter _⟩

theorem joinReservations_length {s : State} (h : Handle) :
    (joinReservations s h).reservations.length = (s.reservations.filter (· != h)).length + 1 :=
  (joinReservations_perm s h).length_eq

theorem length_filter_ne_lt {l : List Handle} {h : Handle} (m : h ∈ l) : (l.filter (· != h)).length + 1 ≤ l.length :=
  List.length_filter_lt_length_iff_exists.2 ⟨h, m, by simp⟩

/-- A RESERVED holder's deadline restarts (R81, R98). -/
theorem keeps_joinReservations {V : Prop} {s : State} {h : Handle} (lt : TablesCanonical s → h < Config.unitRecords)
    (e : (getRec s h).state = .reserved) : Keeps V s (joinReservations s h) := by
  have only := joinReservations_only s h
  refine .of_profile (sameProfile_joinReservations s h) (fun w => ?_) (fun c => c.joinReservations (lt c)) fun _ sd => ?_
  · rw [only]; exact w.trials
  have keep : ∀ g, ∃ d, getRec (joinReservations s h) g = { getRec s g with deadline := d } := fun g => by
    by_cases gh : g = h
    · subst gh; exact ⟨_, joinReservations_rec s g⟩
    · exact ⟨_, joinReservations_other s gh⟩
  have st : ∀ g, (getRec (joinReservations s h) g).state = (getRec s g).state
      ∧ (getRec (joinReservations s h) g).lane = (getRec s g).lane := fun g => by
    obtain ⟨d, e⟩ := keep g; rw [e]; exact ⟨rfl, rfl⟩
  have mem : h ∈ s.reservations := (sd.agrees.reserved h).2 e
  have occ : ∀ l, occupantsOf (joinReservations s h) l = occupantsOf s l :=
    fun l => occupantsOf_of_slot (slotOf_congr (by rw [only]) (by rw [only]) l)
  refine
    { agrees := sd.agrees.of_one h (fun g _ => st g) ?_ (fun l => ?_) (fun l => ?_) ?_ ?_ ?_ ?_
      rooms := ⟨fun l => by rw [occ]; exact sd.rooms.occupants l, by rw [only]; exact sd.rooms.offers, ?_⟩
      packed := pendingPacked_congr (by rw [only]) occ fun g => by obtain ⟨d, e⟩ := keep g; rw [e]; rfl
      order := fun o => joinReservations_order h (o.sublist List.filter_sublist)
      holder := fun o => o.of_sub fun m g hm => ?_ }
  · rw [(st h).1, (st h).2]; exact sd.agrees.placed h
  · rw [(st h).1, (st h).2, occ]; exact .same (sd.agrees.once l) (sd.agrees.listed l h)
  · rw [occ]; exact (sd.agrees.aboardFirst l).congr fun g _ => by unfold isAboard; rw [(st g).1]
  · rw [(st h).1]; exact .same sd.agrees.distinct.1 (sd.agrees.offered h)
  · exact joinReservations_differs h sd.agrees.distinct.2.1 ((st h).1.trans e)
  · rw [(st h).1]; exact .same sd.agrees.distinct.2.2.1 (sd.agrees.trial h)
  · rw [(st h).1]; exact .same sd.agrees.distinct.2.2.2 (sd.agrees.left h)
  · rw [joinReservations_length, only]
    exact (Nat.add_le_add_left (length_filter_ne_lt mem) _).trans sd.rooms.commitments
  · obtain ⟨d, e⟩ := keep g; rw [e] at hm; exact hm

/-- A listed pending record becomes RESERVED in place (R44, R90, R114). -/
theorem follows_makeReserved {s : State} {h : Handle} (sd : Sound s)
    (e : (getRec s h).state = .offered ∨ (getRec s h).state = .trial)
    (room : (s.offers.filter (· != h)).length + s.reservations.length + 1 ≤ Config.commitmentCapacity)
    (holder : ∀ m, recHasMark m (getRec s h) = true → (getRec s h).state = .offered ∨ ∀ g, ¬ HoldsMark m (getRec s g)) :
    Follows s (makeReserved (offLists s h) h) := by
  have only := makeReserved_only (offLists s h) h
  obtain ⟨st, ln, ds⟩ := makeReserved_rec (offLists s h) h
  have other : ∀ g, g ≠ h → getRec (makeReserved (offLists s h) h) g = getRec s g := fun g gh => makeReserved_other _ gh
  have pend : isAboard s h = false := by unfold isAboard; rcases e with e | e <;> rw [e] <;> rfl
  have live : isLive (getRec s h).state = true := by rcases e with e | e <;> rw [e] <;> rfl
  have occ : ∀ l, occupantsOf (makeReserved (offLists s h) h) l = occupantsOf s l :=
    fun l => occupantsOf_of_slot (slotOf_congr (by rw [only]; rfl) (by rw [only]; rfl) l)
  have res : s.reservations.filter (· != h) = s.reservations :=
    sd.agrees.off_list.2.1 (by rcases e with e | e <;> rw [e] <;> decide)
  have resLength : (makeReserved (offLists s h) h).reservations.length = s.reservations.length + 1 := by
    refine (joinReservations_length h).trans ?_
    rw [← res]; simp [offLists]
  have resDiffers : DiffersAt s.reservations (makeReserved (offLists s h) h).reservations h
      ((getRec (makeReserved (offLists s h) h) h).state = .reserved) := by
    have d := joinReservations_differs
      (s := setRec (offLists s h) h { getRec (offLists s h) h with state := .reserved, changed := true }) h
      (sd.agrees.distinct.2.1.filter _) st
    refine ⟨fun g gh => (d.other g gh).trans ?_, d.self, d.nodup⟩
    change g ∈ s.reservations.filter (· != h) ↔ _
    rw [res]
  refine
    { agrees := sd.agrees.of_one h (fun g gh => by rw [other g gh]; exact ⟨rfl, rfl⟩) ?_ (fun l => ?_) (fun l => ?_) ?_
        resDiffers ?_ ?_
      rooms := ⟨fun l => by rw [occ]; exact sd.rooms.occupants l, ?_, ?_⟩
      packed := pendingPacked_congr (by rw [only]; rfl) occ fun g => ?_
      order := fun o => joinReservations_order h ?_
      holder := fun o => o.of_new h (fun m g gh hm => by rwa [other g gh] at hm) fun m hm g gh hg => ?_ }
  · rw [ln]; exact fun _ => sd.agrees.placed h live
  · rw [st, ln, occ]
    exact .same (sd.agrees.once l) ((sd.agrees.listed l h).trans (by rw [live]; rfl))
  · rw [occ]
    refine (sd.agrees.aboardFirst l).congr fun g _ => ?_
    by_cases gh : g = h
    · subst gh; rw [pend]; unfold isAboard; rw [st]; rfl
    · unfold isAboard; rw [other g gh]
  · rw [st]; exact .filter sd.agrees.distinct.1 (by simp)
  · rw [st]; exact .filter sd.agrees.distinct.2.2.1 (by simp)
  · rw [st, show (makeReserved (offLists s h) h).departures = s.departures by rw [only]; rfl]
    refine .same sd.agrees.distinct.2.2.2 ((sd.agrees.left h).trans ?_)
    rcases e with e | e <;> rw [e] <;> simp
  · rw [only]; exact (List.length_filter_le ..).trans sd.rooms.offers
  · rw [resLength, only, ← Nat.add_assoc]; exact room
  · by_cases gh : g = h
    · subst gh
      unfold packKey recKind recLength makeReserved
      rw [joinReservations_rec, getRec_setRec_self]
      unfold isAboard at pend
      rw [pend]; rfl
    · rw [other g gh]
  · change (List.filter (· != h) (s.reservations.filter (· != h))).Pairwise _
    refine ((o.sublist List.filter_sublist).sublist List.filter_sublist).imp_of_mem fun ha hb le => ?_
    have read : ∀ g ∈ List.filter (· != h) (s.reservations.filter (· != h)),
        ticksLeft (setRec (offLists s h) h { getRec (offLists s h) h with state := .reserved, changed := true }) g
          = ticksLeft s g := fun g hg => by
      unfold ticksLeft; rw [getRec_setRec_other _ _ (by simpa using (List.mem_filter.1 hg).2)]; rfl
    rw [read _ ha, read _ hb]; exact le
  · have mark : recHasMark m (getRec s h) = true := by
      have := hm.2; unfold recHasMark at this ⊢; rw [ds] at this; exact this
    rw [other g gh] at hg
    rcases holder m mark with off | none
    · exact gh (o m g h hg.1 (by rw [off]; rfl) hg.2 mark)
    · exact none g hg

/-- An offer is converted (R90). -/
theorem keeps_makeReserved {V : Prop} {s : State} {h : Handle} (m : h ∈ s.offers) (e : (getRec s h).state = .offered) :
    Keeps V s (makeReserved { s with offers := s.offers.filter (· != h) } h) := by
  refine .of_profile ?_ (fun w => ?_) (fun c => ?_) fun _ sd => ?_
  · exact (sameProfile_offers s _).trans (sameProfile_makeReserved _ h)
  · rw [makeReserved_only]; exact w.trials
  · exact TablesCanonical.makeReserved (s := { s with offers := s.offers.filter (· != h) })
      { c with offers := fun g hg => c.offers g (List.mem_filter.1 hg).1 } (c.offers h m)
  · rw [← offLists_offer sd.agrees e]
    refine follows_makeReserved sd (.inl e) ?_ fun _ _ => .inl e
    have lt := length_filter_ne_lt m
    have le := sd.rooms.commitments
    omega

end Sys2Proof.Machine

namespace Sys2Proof.Machine

/-! ## Allocation -/

/-- What an allocation does: nothing, or it frees the LEFT record that departed first, with RECORDS_LOW (R27). -/
theorem allocate_cases {s t : State} {h : Handle} (e : allocate s = some (h, t)) :
    (firstFree s = some h ∧ t = s)
      ∨ ∃ d, s.departures = h :: d ∧ t = raiseNotice { setRec s h freeRecord with departures := d } .recordsLow := by
  unfold allocate at e
  split at e
  · rename_i g hg; cases e; exact .inl ⟨hg, rfl⟩
  · split at e
    · cases e
    · rename_i g d hd; cases e; exact .inr ⟨d, hd, rfl⟩

/-- The record chosen is blank afterwards, and no other changes. -/
theorem allocate_rec {s t : State} {h : Handle} (c : TablesCanonical s) (e : allocate s = some (h, t)) (g : Handle) :
    getRec t g = if g = h then freeRecord else getRec s g := by
  rcases allocate_cases e with ⟨hf, rfl⟩ | ⟨d, -, rfl⟩
  · split
    · rename_i gh
      unfold firstFree at hf
      split at hf
      · cases hf; subst gh
        unfold getRec; rw [Table.find_firstGap c.records]; rfl
      · cases hf
    · rfl
  · exact getRec_setRec s h g freeRecord

theorem allocate_blank {s t : State} {h : Handle} (c : TablesCanonical s) (e : allocate s = some (h, t)) :
    getRec t h = freeRecord := by rw [allocate_rec c e, if_pos rfl]

/-- An allocation keeps every condition (R27). -/
theorem keeps_allocate {V : Prop} {s t : State} {h : Handle} (e : allocate s = some (h, t)) : Keeps V s t := by
  refine .of_profile (sameProfile_allocate e) (fun w => by rw [allocate_only e]; exact w.trials)
    (fun c => (c.allocate e).2) fun v sd => ?_
  rcases allocate_cases e with ⟨-, rfl⟩ | ⟨d, hd, rfl⟩
  · exact (Keeps.refl t).map v sd
  · have left : (getRec s h).state = .left := (sd.agrees.left h).1 (hd ▸ List.mem_cons_self)
    have nd := sd.agrees.distinct.2.2.2
    rw [hd, List.nodup_cons] at nd
    have freed : { setRec s h freeRecord with departures := d } = freeRec s h := by
      rw [freeRec_dead (by rw [left]; rfl), hd, List.filter_cons_of_neg (by simp), filter_ne_self nd.1]
    rw [freed]
    exact ((keeps_freeLeft left).trans (keeps_raiseNotice _ _)).map v sd

/-! ## A new record at the tail of a lane -/

/-- A blank record is written, listed at the tail of a lane with room, and put on the list of its state; its deadline may be
set besides. -/
theorem follows_tail {s t : State} {h : Handle} {l : Lane} {r : UnitRec} (sd : Sound s) (blank : getRec s h = freeRecord)
    (room : hasRoom s l = true) (live : isLive r.state = true) (pend : r.state ≠ .aboard)
    (recs : ∀ g, ∃ d, getRec t g = { getRec (listAtTail (setRec s h r) h l) g with deadline := d })
    (occ : ∀ m, occupantsOf t m = occupantsOf (listAtTail (setRec s h r) h l) m) (gaps : t.gaps = s.gaps)
    (offers : DiffersAt s.offers t.offers h (r.state = .offered))
    (reservations : DiffersAt s.reservations t.reservations h (r.state = .reserved))
    (trials : DiffersAt s.trials t.trials h (r.state = .trial)) (departures : t.departures = s.departures)
    (few : t.offers.length ≤ Config.offerCapacity)
    (commitments : t.offers.length + t.reservations.length ≤ Config.commitmentCapacity)
    (order : ReservationsInOrder s → ReservationsInOrder t)
    (marks : ∀ m, recHasMark m r = true → isHolder r.state = true → ∀ g, ¬ HoldsMark m (getRec s g)) : Follows s t := by
  have off : ∀ m, h ∉ occupantsOf s m := sd.agrees.not_listed (by rw [blank]; rfl)
  have room' : hasRoom (setRec s h r) l = true := room
  obtain ⟨ho, hm, hh, hr⟩ := listAtTail_spec (h := h) room'
  rw [getRec_setRec_self] at hh
  have other : ∀ g, g ≠ h → ∃ d, getRec t g = { getRec s g with deadline := d } := fun g gh => by
    obtain ⟨d, e⟩ := recs g
    exact ⟨d, by rw [e, hr g gh, getRec_setRec_other _ _ gh]⟩
  have self : (getRec t h).state = r.state ∧ (getRec t h).lane = some l ∧ (getRec t h).desc = r.desc := by
    obtain ⟨d, e⟩ := recs h; rw [e, hh]; exact ⟨rfl, rfl, rfl⟩
  have kept : ∀ g, g ≠ h → (getRec t g).state = (getRec s g).state ∧ (getRec t g).lane = (getRec s g).lane
      ∧ (getRec t g).desc = (getRec s g).desc := fun g gh => by
    obtain ⟨d, e⟩ := other g gh; rw [e]; exact ⟨rfl, rfl, rfl⟩
  have pending : isAboard t h = false := by unfold isAboard; rw [self.1]; simpa using pend
  have notLeft : r.state ≠ .left := by rintro e; rw [e] at live; cases live
  have lists : ∀ m, occupantsOf t m = if m = l then occupantsOf s l ++ [h] else occupantsOf s m := fun m => by
    rw [occ]; split
    · rename_i e; subst e; exact ho
    · rename_i e; exact hm m e
  have first : ∀ m, AboardFirst t (occupantsOf s m) := fun m =>
    (sd.agrees.aboardFirst m).congr fun g hg => by
      unfold isAboard; rw [(kept g (by rintro rfl; exact off m hg)).1]
  refine
    { agrees := sd.agrees.of_one h (fun g gh => ⟨(kept g gh).1, (kept g gh).2.1⟩) ?_ (fun m => ?_) (fun m => ?_)
        (self.1.symm ▸ offers) (self.1.symm ▸ reservations) (self.1.symm ▸ trials) ?_
      rooms := ⟨fun m => ?_, few, commitments⟩
      packed := fun p => ?_
      order := order
      holder := fun o => o.of_new h (fun m g gh x => (HoldsMark.congr (kept g gh).1 (kept g gh).2.2).1 x) fun m x g gh y => ?_ }
  · rw [self.2.1]; simp
  · rw [self.1, self.2.1, lists]; split
    · rename_i e; subst e; exact .snoc (sd.agrees.once m) (off m) ⟨live, rfl⟩
    · rename_i e
      exact .same (sd.agrees.once m) ⟨fun x => absurd x (off m), fun x => absurd (Option.some.inj x.2).symm e⟩
  · rw [lists]; split
    · exact (first l).snoc pending
    · exact first m
  · rw [departures, self.1]
    refine .same sd.agrees.distinct.2.2.2 ((sd.agrees.left h).trans ?_)
    rw [blank]; exact ⟨fun x => (nomatch x), fun x => absurd x notLeft⟩
  · rw [lists]; split
    · unfold hasRoom at room
      rw [Bool.and_eq_true, decide_eq_true_eq] at room
      rw [List.length_append]; exact room.2
    · exact sd.rooms.occupants m
  · have q : PendingPacked (listAtTail (setRec s h r) h l) := by
      refine (p.setRec r off).listAtTail room' off ?_ ?_
      · exact (sd.agrees.aboardFirst l).congr fun g hg => by
          unfold isAboard; rw [getRec_setRec_other _ _ (by rintro rfl; exact off l hg)]
      · unfold isAboard; rw [getRec_setRec_self]; simpa using pend
    refine pendingPacked_congr ?_ occ (fun g => ?_) q
    · rw [gaps, (sameProfile_listAtTail _ h l).gaps]; rfl
    · obtain ⟨d, e⟩ := recs g; rw [e]; rfl
  · have hx := (HoldsMark.congr self.1 self.2.2).1 x
    exact marks m hx.2 hx.1 g ((HoldsMark.congr (kept g gh).1 (kept g gh).2.2).1 y)

/-- A lane in which a unit fails no check at the tail position has room for it (R54, R55, R57). -/
theorem hasRoom_of_eligible {s : State} {l : Lane} {e : LaneEntry} {u : UnitDesc} (he : entryOf s l = some e)
    (ok : (tailFailures s l e u).isEmpty = true) : hasRoom s l = true := by
  have passes : ∀ c ∈ allChecks, checkPasses s l e u (tailPlacement s l e u) c = true := fun c hc => by
    by_contra n
    have : c ∈ tailFailures s l e u := List.mem_filter.2 ⟨hc, by simpa using n⟩
    rw [List.isEmpty_iff.1 ok] at this
    exact List.not_mem_nil this
  have count := passes .count (by decide)
  have deck := passes .deckMass (by decide)
  unfold hasRoom listable deckOf
  rw [he]
  simp only [checkPasses] at count deck ⊢
  cases hd : Table.find s.decks e.deck with
  | none => rw [hd] at deck; cases deck
  | some n => simp only [Option.map_some, hd, Option.isSome_some, Bool.true_and]; exact count

/-- The best lane is a defined lane in which the unit fails no check (R67). -/
theorem bestLane_eligible {s : State} {u : UnitDesc} {b : Best} (e : bestLane s u = some b) :
    ∃ x ∈ eligibleLanes s u, x.1 = b.lane := by
  unfold bestLane at e
  have go : ∀ (xs : List (Lane × LaneEntry)) (a : Option Best),
      xs.foldl (fun a e => better a { lane := e.1, score := score s e.1 e.2 u, place := tailPlacement s e.1 e.2 u }) a = some b →
      a = some b ∨ ∃ x ∈ xs, x.1 = b.lane := by
    intro xs
    induction xs with
    | nil => intro a h; exact .inl h
    | cons x xs ih =>
      intro a h
      rcases ih _ h with h | ⟨y, hy, e⟩
      · unfold better at h
        cases a with
        | none => cases h; exact .inr ⟨x, List.mem_cons_self, rfl⟩
        | some a =>
          dsimp only at h
          split at h
          · cases h; exact .inr ⟨x, List.mem_cons_self, rfl⟩
          · exact .inl h
      · exact .inr ⟨y, List.mem_cons_of_mem _ hy, e⟩
  exact (go _ none e).resolve_left (by simp)

theorem entryOf_of_defined {s : State} {x : Lane × LaneEntry} (h : x ∈ definedLanes s) : entryOf s x.1 = some x.2 := by
  unfold definedLanes laneSlots at h
  obtain ⟨y, hy, e⟩ := List.mem_filterMap.1 h
  obtain ⟨z, hz, rfl⟩ := List.mem_map.1 hy
  obtain ⟨a, i⟩ := z
  have slot : s.lanes[i]? = some a := by
    have := List.mem_zipIdx hz
    simp only [Nat.zero_le, Nat.zero_add, Nat.sub_zero, true_and] at this
    rw [List.getElem?_eq_getElem this.1, ← this.2]
  obtain ⟨v, hv, rfl⟩ := Option.map_eq_some_iff.1 e
  unfold entryOf slotOf
  rw [if_pos (Nat.le_add_right _ _), Nat.add_sub_cancel_left, slot]
  exact hv

theorem hasRoom_of_best {s : State} {u : UnitDesc} {b : Best} (e : bestLane s u = some b) : hasRoom s b.lane = true := by
  obtain ⟨x, hx, e⟩ := bestLane_eligible e
  obtain ⟨mem, ok⟩ := List.mem_filter.1 hx
  exact e ▸ hasRoom_of_eligible (entryOf_of_defined mem) ok

/-- Allocation leaves the room of a lane as it is. -/
theorem hasRoom_allocate {s t : State} {h : Handle} (e : allocate s = some (h, t)) {l : Lane} (r : hasRoom s l = true) :
    hasRoom t l = true :=
  (sameProfile_allocate e).hasRoom (by rw [allocate_only e]; exact le_refl _) r

theorem not_holdsMark_allocate {s t : State} {h : Handle} {m : Mark} (c : TablesCanonical s) (e : allocate s = some (h, t))
    (n : ∀ g, ¬ HoldsMark m (getRec s g)) (g : Handle) : ¬ HoldsMark m (getRec t g) := by
  rw [allocate_rec c e]; split
  · exact not_holdsMark_free m
  · exact n g

theorem order_of_blank {s t : State} {h : Handle} (sd : Sound s) (blank : getRec s h = freeRecord)
    (same : t.reservations = s.reservations) (other : ∀ g, g ≠ h → getRec t g = getRec s g) (o : ReservationsInOrder s) :
    ReservationsInOrder t := by
  refine o.of_sublist (same ▸ List.Sublist.refl _) fun g hg => ?_
  rw [other g]
  rintro rfl
  have := (sd.agrees.reserved g).1 (same ▸ hg)
  rw [blank] at this; cases this

theorem not_mem_of_blank {s : State} {h : Handle} (m : MapAgrees s) (blank : getRec s h = freeRecord) :
    h ∉ s.offers ∧ h ∉ s.reservations ∧ h ∉ s.trials := by
  refine ⟨fun x => ?_, fun x => ?_, fun x => ?_⟩
  · have := (m.offered h).1 x; rw [blank] at this; cases this
  · have := (m.reserved h).1 x; rw [blank] at this; cases this
  · have := (m.trial h).1 x; rw [blank] at this; cases this

/-- An offer is placed (R84). -/
theorem keeps_placeOffer {V : Prop} {s : State} {u : UnitDesc} {n : Seq} {l : Lane} (room : hasRoom s l = true)
    (open_ : offersFull s = false) (marks : ∀ g, ¬ HoldsMark u.mark (getRec s g)) : Keeps V s (placeOffer s u n l) := by
  unfold placeOffer
  cases e : allocate s with
  | none => exact .refl s
  | some x =>
    obtain ⟨h, a⟩ := x
    dsimp only
    set r : UnitRec := { newRecord u .offered with sequence := some n, deadline := some s.policy.offerTimeout } with hr
    have only := listAtTail_only (setRec a h r) h l
    have trials : (listAtTail (setRec a h r) h l).trials = a.trials := by rw [only]; rfl
    have offers : (listAtTail (setRec a h r) h l).offers = a.offers := by rw [only]; rfl
    have res : (listAtTail (setRec a h r) h l).reservations = a.reservations := by rw [only]; rfl
    have room' := hasRoom_allocate e room
    have profile : SameProfile a (listAtTail (setRec a h r) h l) := (sameProfile_setRec a h r).trans (sameProfile_listAtTail _ h l)
    refine .of_profile (((sameProfile_allocate e).trans profile).trans {}) (fun w => ?_) (fun c => ?_) fun v sd => ?_
    · dsimp only; rw [trials, allocate_only e]; exact w.trials
    · obtain ⟨lt, ca⟩ := c.allocate e
      have ct := (ca.setRec r lt).listAtTail l lt
      refine { ct with offers := fun g hg => ?_ }
      rcases List.mem_append.1 hg with hg | hg
      · exact ct.offers g hg
      · exact List.mem_singleton.1 hg ▸ lt
    have ka : Keeps V s a := keeps_allocate e
    have blank := allocate_blank sd.tables e
    have sa := ka.sound v sd
    refine (ka.map v sd).trans ?_
    have few : a.offers.length < Config.offerCapacity ∧ a.offers.length + a.reservations.length < Config.commitmentCapacity := by
      rw [allocate_only e]
      unfold offersFull commitmentRoom at open_
      simpa [Nat.not_le] using open_
    obtain ⟨nOffer, nRes, nTrial⟩ := not_mem_of_blank sa.agrees blank
    refine follows_tail (r := r) (l := l) sa blank room' rfl (fun x => (nomatch x)) (fun g => ⟨_, rfl⟩) (fun _ => rfl) profile.gaps
      ?_ ?_ ?_ ?_ ?_ ?_ ?_ ?_
    · dsimp only; rw [offers]; exact .snoc sa.agrees.distinct.1 nOffer rfl
    · dsimp only; rw [res]; exact .same sa.agrees.distinct.2.1 ⟨fun x => absurd x nRes, fun x => (nomatch x)⟩
    · dsimp only; rw [trials]; exact .same sa.agrees.distinct.2.2.1 ⟨fun x => absurd x nTrial, fun x => (nomatch x)⟩
    · dsimp only; rw [only]; rfl
    · dsimp only; rw [offers, List.length_append]; exact few.1
    · dsimp only; rw [offers, res, List.length_append, List.length_singleton]; have := few.2; omega
    · refine order_of_blank sa blank res fun g gh => ?_
      refine ((listAtTail_spec (s := setRec a h r) (h := h) room').2.2.2 g gh).trans (getRec_setRec_other _ _ gh)
    · intro m hm _
      have mark : u.mark = m := Option.some.inj (eq_of_beq hm)
      exact not_holdsMark_allocate sd.tables e (mark ▸ marks)

end Sys2Proof.Machine

namespace Sys2Proof.Machine

/-- A trial's record is placed and pushed (R112). -/
theorem keeps_pushTrial {V : Prop} {s a : State} {u : UnitDesc} {h : Handle} {l : Lane} (e : allocate s = some (h, a))
    (room : hasRoom s l = true) (few : s.trials.length < Config.trialCapacity) :
    Keeps V s { listAtTail (setRec a h (newRecord u .trial)) h l with
      trials := h :: (listAtTail (setRec a h (newRecord u .trial)) h l).trials } := by
  have only := listAtTail_only (setRec a h (newRecord u .trial)) h l
  have trials : (listAtTail (setRec a h (newRecord u .trial)) h l).trials = a.trials := by rw [only]; rfl
  have offers : (listAtTail (setRec a h (newRecord u .trial)) h l).offers = a.offers := by rw [only]; rfl
  have res : (listAtTail (setRec a h (newRecord u .trial)) h l).reservations = a.reservations := by rw [only]; rfl
  have room' := hasRoom_allocate e room
  have profile : SameProfile a (listAtTail (setRec a h (newRecord u .trial)) h l) :=
    (sameProfile_setRec a h _).trans (sameProfile_listAtTail _ h l)
  refine .of_profile (((sameProfile_allocate e).trans profile).trans {}) (fun w => ?_) (fun c => ?_) fun v sd => ?_
  · dsimp only; rw [trials, allocate_only e]; exact few
  · obtain ⟨lt, ca⟩ := c.allocate e
    have ct := (ca.setRec (newRecord u .trial) lt).listAtTail l lt
    refine { ct with trials := fun g hg => ?_ }
    rcases List.mem_cons.1 hg with rfl | hg
    · exact lt
    · exact ct.trials g hg
  have ka : Keeps V s a := keeps_allocate e
  have blank := allocate_blank sd.tables e
  have sa := ka.sound v sd
  refine (ka.map v sd).trans ?_
  obtain ⟨nOffer, nRes, nTrial⟩ := not_mem_of_blank sa.agrees blank
  refine follows_tail (r := newRecord u .trial) (l := l) sa blank room' rfl (fun x => (nomatch x)) (fun g => ⟨_, rfl⟩)
    (fun _ => rfl) profile.gaps ?_ ?_ ?_ ?_ ?_ ?_ ?_ ?_
  · dsimp only; rw [offers]; exact .same sa.agrees.distinct.1 ⟨fun x => absurd x nOffer, fun x => (nomatch x)⟩
  · dsimp only; rw [res]; exact .same sa.agrees.distinct.2.1 ⟨fun x => absurd x nRes, fun x => (nomatch x)⟩
  · dsimp only; rw [trials]; exact .cons sa.agrees.distinct.2.2.1 nTrial rfl
  · dsimp only; rw [only]; rfl
  · dsimp only; rw [offers]; exact sa.rooms.offers
  · dsimp only; rw [offers, res]; exact sa.rooms.commitments
  · refine order_of_blank sa blank res fun g gh => ?_
    exact ((listAtTail_spec (s := setRec a h (newRecord u .trial)) (h := h) room').2.2.2 g gh).trans
      (getRec_setRec_other _ _ gh)
  · exact fun _ _ x => (nomatch x)

/-- A late CONFIRM's reservation is made (R93). -/
theorem keeps_lateReserve {V : Prop} {s : State} {u : UnitDesc} {n : Seq} {l : Lane} (room : hasRoom s l = true)
    (open_ : commitmentRoom s = true) (marks : ∀ g, ¬ HoldsMark u.mark (getRec s g)) : Keeps V s (lateReserve s u n l) := by
  unfold lateReserve
  cases e : allocate s with
  | none => exact .refl s
  | some x =>
    obtain ⟨h, a⟩ := x
    dsimp only
    refine Keeps.trans ?_ (keeps_post ..)
    set r : UnitRec := { newRecord u .reserved with sequence := some n } with hr
    set b := listAtTail (setRec a h r) h l with hb
    have only := listAtTail_only (setRec a h r) h l
    have trials : b.trials = a.trials := by rw [hb, only]; rfl
    have offers : b.offers = a.offers := by rw [hb, only]; rfl
    have res : b.reservations = a.reservations := by rw [hb, only]; rfl
    have room' := hasRoom_allocate e room
    have profile : SameProfile a (joinReservations b h) :=
      ((sameProfile_setRec a h _).trans (sameProfile_listAtTail _ h l)).trans (sameProfile_joinReservations b h)
    refine .of_profile ((sameProfile_allocate e).trans profile) (fun w => ?_) (fun c => ?_) fun v sd => ?_
    · rw [joinReservations_only]; dsimp only; rw [trials, allocate_only e]; exact w.trials
    · obtain ⟨lt, ca⟩ := c.allocate e
      exact ((ca.setRec r lt).listAtTail l lt).joinReservations lt
    have ka : Keeps V s a := keeps_allocate e
    have blank := allocate_blank sd.tables e
    have sa := ka.sound v sd
    refine (ka.map v sd).trans ?_
    have few : a.offers.length + a.reservations.length < Config.commitmentCapacity := by
      rw [allocate_only e]; simpa [commitmentRoom] using open_
    obtain ⟨nOffer, nRes, nTrial⟩ := not_mem_of_blank sa.agrees blank
    have kept : a.reservations.filter (· != h) = a.reservations := filter_ne_self nRes
    have other : ∀ g, g ≠ h → getRec b g = getRec a g := fun g gh =>
      ((listAtTail_spec (s := setRec a h r) (h := h) room').2.2.2 g gh).trans (getRec_setRec_other _ _ gh)
    refine follows_tail (r := r) (l := l) (h := h) sa blank room' rfl (fun x => (nomatch x)) (fun g => ?_) (fun _ => rfl) profile.gaps
      ?_ ?_ ?_ ?_ ?_ ?_ (fun o => ?_) ?_
    · by_cases gh : g = h
      · subst gh; exact ⟨_, joinReservations_rec b g⟩
      · exact ⟨_, joinReservations_other b gh⟩
    · rw [joinReservations_only]; dsimp only; rw [offers]
      exact .same sa.agrees.distinct.1 ⟨fun x => absurd x nOffer, fun x => (nomatch x)⟩
    · have d := joinReservations_differs (s := b) h (res ▸ sa.agrees.distinct.2.1) (P := r.state = .reserved) rfl
      rwa [res] at d
    · rw [joinReservations_only]; dsimp only; rw [trials]
      exact .same sa.agrees.distinct.2.2.1 ⟨fun x => absurd x nTrial, fun x => (nomatch x)⟩
    · rw [joinReservations_only, hb, only]; rfl
    · rw [joinReservations_only]; dsimp only; rw [offers]; exact sa.rooms.offers
    · rw [joinReservations_length, res, kept, joinReservations_only]; dsimp only; rw [offers, ← Nat.add_assoc]; exact few
    · refine joinReservations_order h ?_
      rw [res, kept]
      refine List.Pairwise.imp_of_mem (fun {x y} hx hy le => ?_) o
      have nx : x ≠ h := by rintro rfl; exact nRes hx
      have ny : y ≠ h := by rintro rfl; exact nRes hy
      unfold ticksLeft; rw [other x nx, other y ny]; exact le
    · intro m hm _
      have mark : u.mark = m := Option.some.inj (eq_of_beq hm)
      exact not_holdsMark_allocate sd.tables e (mark ▸ marks)

/-! ## Departures and placements ABOARD -/

/-- A record as it stands LEFT (R132). -/
def leftRecord (s : State) (h : Handle) : UnitRec :=
  { getRec (unlist s h) h with state := .left, departureTime := some s.stowClock, changed := true }

theorem makeLeft_getRec (s : State) (h g : Handle) :
    getRec (makeLeft s h) g = getRec (setRec (unlist s h) h (leftRecord s h)) g := rfl

theorem makeLeft_rec (s : State) (h : Handle) : (getRec (makeLeft s h) h).state = .left
    ∧ (getRec (makeLeft s h) h).lane = (getRec s h).lane := by
  obtain ⟨o, c, k, e⟩ := unlist_eta s h h
  rw [makeLeft_getRec, getRec_setRec_self]
  unfold leftRecord
  rw [e]; exact ⟨rfl, rfl⟩

theorem makeLeft_eta {s : State} {h g : Handle} (gh : g ≠ h) :
    ∃ o c k, getRec (makeLeft s h) g = { getRec s g with offset := o, centre := c, changed := k } := by
  rw [makeLeft_getRec, getRec_setRec_other _ _ gh]; exact unlist_eta s h g

theorem makeLeft_occupants {s : State} (lo : ListedOnce s) (h : Handle) (m : Lane) :
    occupantsOf (makeLeft s h) m = (occupantsOf s m).filter (· != h) := unlist_occupants lo h m

theorem PendingPacked.makeLeft {s : State} (p : PendingPacked s) (lo : ListedOnce s) (h : Handle) :
    PendingPacked (makeLeft s h) := by
  have off : ∀ l, h ∉ occupantsOf (Machine.unlist s h) l := fun l => by rw [unlist_occupants lo]; simp
  have q := (p.unlist lo h).setRec (leftRecord s h) off
  exact pendingPacked_congr (by rfl) (fun _ => by rfl) (fun _ => by rfl) q

/-- An ABOARD unit departs (R125, R126, R132). -/
theorem keeps_makeLeft {V : Prop} {s : State} {h : Handle} (lt : TablesCanonical s → h < Config.unitRecords)
    (e : (getRec s h).state = .aboard) : Keeps V s (makeLeft s h) := by
  have only := makeLeft_only s h
  refine .of_profile (sameProfile_makeLeft s h) (fun w => by rw [only]; exact w.trials) (fun c => c.makeLeft (lt c)) fun _ sd => ?_
  have lo := sd.agrees.listedOnce
  have occ := makeLeft_occupants lo h
  obtain ⟨st, ln⟩ := makeLeft_rec s h
  have keep : ∀ g, g ≠ h → (getRec (makeLeft s h) g).state = (getRec s g).state
      ∧ (getRec (makeLeft s h) g).lane = (getRec s g).lane ∧ (getRec (makeLeft s h) g).desc = (getRec s g).desc
      ∧ (getRec (makeLeft s h) g).deadline = (getRec s g).deadline := fun g gh => by
    obtain ⟨o, c, k, x⟩ := makeLeft_eta (s := s) gh; rw [x]; exact ⟨rfl, rfl, rfl, rfl⟩
  have offers : (makeLeft s h).offers = s.offers := by rw [only]
  have res : (makeLeft s h).reservations = s.reservations := by rw [only]
  have dep : (makeLeft s h).departures = s.departures ++ [h] := by
    unfold makeLeft; dsimp only; rw [setRec_departures, unlist_only]
  refine
    { agrees := sd.agrees.of_one h (fun g gh => ⟨(keep g gh).1, (keep g gh).2.1⟩) ?_ (fun l => ?_) (fun l => ?_) ?_ ?_ ?_ ?_
      rooms := ⟨fun l => ?_, offers ▸ sd.rooms.offers, by rw [offers, res]; exact sd.rooms.commitments⟩
      packed := fun p => p.makeLeft lo h
      order := fun o => o.of_sublist (res ▸ List.Sublist.refl _) fun g hg => ?_
      holder := fun o => o.of_sub fun m g x => ?_ }
  · rw [st]; exact fun x => (nomatch x)
  · rw [occ, st]; exact .filter (sd.agrees.once l) (fun x => (nomatch x.1))
  · rw [occ]
    refine ((sd.agrees.aboardFirst l).filter _).congr fun g hg => ?_
    unfold isAboard; rw [(keep g (by simpa using (List.mem_filter.1 hg).2)).1]
  · rw [offers, st]; exact .same sd.agrees.distinct.1 ((sd.agrees.offered h).trans (by rw [e]; simp))
  · rw [res, st]; exact .same sd.agrees.distinct.2.1 ((sd.agrees.reserved h).trans (by rw [e]; simp))
  · rw [st, only]; exact .same sd.agrees.distinct.2.2.1 ((sd.agrees.trial h).trans (by rw [e]; simp))
  · rw [dep, st]
    exact .snoc sd.agrees.distinct.2.2.2 (fun x => by have := (sd.agrees.left h).1 x; rw [e] at this; cases this) rfl
  · rw [occ]; exact (List.length_filter_le ..).trans (sd.rooms.occupants l)
  · have gh : g ≠ h := by
      rintro rfl; have := (sd.agrees.reserved g).1 (res ▸ hg); rw [e] at this; cases this
    exact (keep g gh).2.2.2
  · by_cases gh : g = h
    · subst gh; have := x.1; rw [st] at this; cases this
    · exact (HoldsMark.congr (keep g gh).1 (keep g gh).2.2.1).1 x

/-- What placing a record ABOARD does, where `x`, the state just before it, differs from the sound state `y` at that record,
which is unlisted and off every list, and in packing. -/
structure BeforeAboard (y x : State) (h : Handle) (l : Lane) : Prop where
  keep : ∀ g, g ≠ h → ∃ o c k, getRec x g = { getRec y g with offset := o, centre := c, changed := k }
  occ : ∀ k, occupantsOf x k = (occupantsOf y k).filter (· != h)
  slot : (slotOf x l).isSome = true
  offers : x.offers = y.offers.filter (· != h)
  reservations : x.reservations = y.reservations.filter (· != h)
  trials : x.trials = y.trials.filter (· != h)
  departures : x.departures = y.departures.filter (· != h)
  room : (occupantsOf x l).length < Config.laneCapacity

theorem BeforeAboard.not_listed {y x : State} {h : Handle} {l : Lane} (b : BeforeAboard y x h l) (k : Lane) :
    h ∉ occupantsOf x k := by rw [b.occ]; simp

theorem BeforeAboard.kept {y x : State} {h : Handle} {l : Lane} (b : BeforeAboard y x h l) {g : Handle} (gh : g ≠ h) :
    ∃ o c k, getRec (placeAboard x h l) g = { getRec y g with offset := o, centre := c, changed := k } := by
  obtain ⟨o, c, k, e⟩ := placeAboard_eta (b.not_listed l) b.slot gh
  obtain ⟨o', c', k', e'⟩ := b.keep g gh
  exact ⟨o, c, k, by rw [e, e']⟩

theorem BeforeAboard.moves {s y x : State} {h : Handle} {l : Lane} (b : BeforeAboard y x h l) (sd : Sound y)
    (packed : PendingPacked s → ∀ m, m ≠ l → LanePacked x m) (order : ReservationsInOrder s → ReservationsInOrder y) :
    Moves s (placeAboard x h l) := by
  have lo : ListedOnce x :=
    ⟨fun m g hg => by
      have hx := hg
      rw [b.occ] at hx
      obtain ⟨o, c, k, e⟩ := b.keep g (by simpa using (List.mem_filter.1 hx).2)
      rw [e]; exact sd.agrees.listedOnce.home m g (List.mem_filter.1 hx).1,
    fun m => by rw [b.occ]; exact (sd.agrees.once m).filter _⟩
  have only := placeAboard_only x h l
  have offers : (placeAboard x h l).offers = y.offers.filter (· != h) := by rw [only]; exact b.offers
  have res : (placeAboard x h l).reservations = y.reservations.filter (· != h) := by rw [only]; exact b.reservations
  obtain ⟨ho, -, -, -, others⟩ := placeAboard_spec x h l b.slot
  have length : (occupantsOf (placeAboard x h l) l).length = (occupantsOf x l).length + 1 := by
    rw [ho, List.append_assoc, List.length_append, List.length_append, List.length_singleton]
    have := (List.filter_append_perm (isAboard x) (occupantsOf x l)).length_eq
    rw [List.length_append] at this
    unfold aboardPart pendingPart
    omega
  refine
    { agrees := sd.agrees.placeAboard (fun g gh => ?_) b.occ b.slot b.offers b.reservations b.trials b.departures
      rooms := ⟨fun m => ?_, ?_, ?_⟩
      packed := fun p => placeAboard_packed lo b.not_listed b.slot (packed p)
      order := fun o => (order o).of_sublist (res ▸ List.filter_sublist) fun g hg => ?_ }
  · obtain ⟨o, c, k, e⟩ := b.keep g gh; rw [e]; exact ⟨rfl, rfl⟩
  · by_cases ml : m = l
    · subst ml; rw [length]; exact b.room
    · rw [occupantsOf_of_slot (others m ml), b.occ]
      exact (List.length_filter_le ..).trans (sd.rooms.occupants m)
  · rw [offers]; exact (List.length_filter_le ..).trans sd.rooms.offers
  · rw [offers, res]
    exact (Nat.add_le_add (List.length_filter_le ..) (List.length_filter_le ..)).trans sd.rooms.commitments
  · rw [res] at hg
    obtain ⟨o, c, k, e⟩ := b.kept (g := g) (by simpa using (List.mem_filter.1 hg).2)
    rw [e]

/-- The record come ABOARD holds its mark alone. -/
theorem BeforeAboard.holder {y x : State} {h : Handle} {l : Lane} (b : BeforeAboard y x h l) {s : State} (o : OneHolder s)
    (sub : ∀ m g, g ≠ h → HoldsMark m (getRec y g) → HoldsMark m (getRec s g))
    (new : ∀ m, HoldsMark m { getRec x h with state := .aboard } → ∀ g, g ≠ h → ¬ HoldsMark m (getRec y g)) :
    OneHolder (placeAboard x h l) := by
  have read : ∀ m g, g ≠ h → HoldsMark m (getRec (placeAboard x h l) g) → HoldsMark m (getRec y g) := fun m g gh hm => by
    obtain ⟨o, c, k, e⟩ := b.kept gh; rw [e] at hm; exact hm
  refine o.of_new h (fun m g gh hm => sub m g gh (read m g gh hm)) fun m hm g gh hg => new m ?_ g gh (read m g gh hg)
  rw [(placeAboard_spec x h l b.slot).2.1] at hm
  exact hm

end Sys2Proof.Machine

namespace Sys2Proof.Machine

/-! ## The actions of a tally (Table 6.2) -/

theorem canTake_own {s : State} {l : Lane} {h : Handle} (c : canTake s l (some h) = true) :
    listable s l = true ∧ ((occupantsOf s l).filter (· != h)).length < Config.laneCapacity := by
  unfold canTake at c
  rw [Bool.and_eq_true, decide_eq_true_eq] at c
  have same : (occupantsOf s l).filter (fun g => some g != some h) = (occupantsOf s l).filter (· != h) :=
    List.filter_congr fun g _ => by simp [bne]
  rwa [same] at c

theorem canTake_new {s : State} {l : Lane} (c : canTake s l none = true) : hasRoom s l = true := by
  unfold canTake at c
  have all : (occupantsOf s l).filter (fun g => some g != none) = occupantsOf s l := List.filter_eq_self.2 fun g _ => by simp
  rw [all] at c
  exact c

theorem hasRoom_length {s : State} {l : Lane} (r : hasRoom s l = true) : (occupantsOf s l).length < Config.laneCapacity := by
  unfold hasRoom at r; rw [Bool.and_eq_true, decide_eq_true_eq] at r; exact r.2

/-- The lists of a sound state without a record that is not LEFT. -/
theorem MapAgrees.departures_off {s : State} (m : MapAgrees s) {h : Handle} (e : isLive (getRec s h).state = true) :
    s.departures.filter (· != h) = s.departures :=
  m.off_list.2.2.2 fun x => by rw [x] at e; cases e

/-- A commit's promotion (R41, R119). -/
theorem keeps_commit {V : Prop} {s : State} {h : Handle} {l : Lane} (e : (getRec s h).state = .reserved)
    (ln : (getRec s h).lane = some l) :
    Keeps V s (promote { s with reservations := s.reservations.filter (· != h) } h l) := by
  set u : State := { s with reservations := s.reservations.filter (· != h) } with hu
  have only := promote_only u h l
  refine .of_profile ?_ (fun w => by rw [only]; exact w.trials) (fun c => ?_) fun _ sd => ?_
  · exact (sameProfile_reservations s _).trans (sameProfile_promote u h l)
  · have cu : TablesCanonical u := { c with reservations := fun g hg => c.reservations g (List.mem_filter.1 hg).1 }
    exact cu.promote l (c.lt_of_rec fun x => by rw [x] at e; cases e)
  have live : isLive (getRec s h).state = true := by rw [e]; rfl
  have mem : h ∈ occupantsOf s l := (sd.agrees.listed l h).2 ⟨live, ln⟩
  have slot : (slotOf s l).isSome = true := occ_some_slot.resolve_left (List.ne_nil_of_mem mem)
  set x := setOccupants u l ((occupantsOf u l).filter (· != h)) with hx
  have profile : SameProfile u x := sameProfile_setOccupants u l _
  have recs : ∀ g, getRec x g = getRec s g := fun g => getRec_setOccupants u l _ g
  have elsewhere : ∀ k, k ≠ l → occupantsOf x k = occupantsOf s k := fun k kl => occupantsOf_setOccupants_other u _ kl
  have b : BeforeAboard s x h l :=
    { keep := fun g _ => ⟨_, _, _, recs g⟩
      occ := fun k => by
        by_cases kl : k = l
        · subst kl; exact occupantsOf_setOccupants u _ slot
        · rw [elsewhere k kl, filter_ne_self]
          intro hm
          have := ((sd.agrees.listed k h).1 hm).2
          rw [ln] at this; exact kl (Option.some.inj this).symm
      slot := by rw [hx, slotOf_setOccupants, if_pos rfl, Option.isSome_map]; exact slot
      offers := by rw [hx, setOccupants_only, sd.agrees.off_list.1 (by rw [e]; decide)]
      reservations := by rw [hx, setOccupants_only]
      trials := by rw [hx, setOccupants_only, sd.agrees.off_list.2.2.1 (by rw [e]; decide)]
      departures := by rw [hx, setOccupants_only, sd.agrees.departures_off live]
      room := by
        have list : occupantsOf x l = (occupantsOf s l).filter (· != h) := occupantsOf_setOccupants u _ slot
        rw [list]
        exact (length_filter_ne_lt mem).trans (sd.rooms.occupants l) }
  have packed : PendingPacked s → ∀ m, m ≠ l → LanePacked x m := fun p m ml =>
    LanePacked.congr (p m) (by rw [profile.gaps]) (elsewhere m ml) fun g _ => by rw [recs]
  refine ⟨b.moves sd packed id, fun o => b.holder o (fun _ _ _ hm => hm) fun m hm g gh hg => ?_⟩
  refine gh (o m g h hg.1 ?_ hg.2 ?_)
  · rw [e]; rfl
  · rw [recs] at hm; exact hm.2

/-- The state in which a pending record that is tallied elsewhere has left its list and its lane, and may have FORCED set
(R121, R123). -/
structure LeftPending (s x : State) (h : Handle) : Prop where
  only : x = { unlist (offLists s h) h with records := x.records }
  other : ∀ g, g ≠ h → getRec x g = getRec (unlist (offLists s h) h) g
  desc : (getRec x h).desc = (getRec s h).desc

/-- A holder that has left its lane and its list comes ABOARD in the lane tallied. -/
theorem LeftPending.follows {s x : State} {h : Handle} {l : Lane} (lp : LeftPending s x h) (sd : Sound s)
    (holder : isHolder (getRec s h).state = true) (can : canTake s l (some h) = true) :
    Follows s (listBehindAboard x h l) := by
  have live : isLive (getRec s h).state = true := by
    revert holder; cases (getRec s h).state <;> simp [isHolder, holderState, isLive]
  have lo : ListedOnce (offLists s h) := ⟨sd.agrees.listedOnce.home, sd.agrees.once⟩
  have lists := unlist_only (offLists s h) h
  have profile : SameProfile s x := by
    have p := (offLists_profile s h).trans (sameProfile_unlist (offLists s h) h)
    rw [lp.only]; exact p.trans {}
  have occ : ∀ k, occupantsOf x k = (occupantsOf s k).filter (· != h) := fun k => by
    rw [lp.only]; exact unlist_occupants lo h k
  obtain ⟨ok, few⟩ := canTake_own can
  have room : hasRoom x l = true := by
    unfold hasRoom; rw [profile.listable, ok, occ]; simpa using few
  have b : BeforeAboard s x h l :=
    { keep := fun g gh => by rw [lp.other g gh]; exact unlist_eta (offLists s h) h g
      occ := occ
      slot := hasRoom_slot room
      offers := by rw [lp.only, lists]; rfl
      reservations := by rw [lp.only, lists]; rfl
      trials := by rw [lp.only, lists]; rfl
      departures := by rw [lp.only, lists, sd.agrees.departures_off live]; rfl
      room := hasRoom_length room }
  have packed : PendingPacked s → ∀ m, m ≠ l → LanePacked x m := fun p m _ => by
    have q : PendingPacked (unlist (offLists s h) h) :=
      PendingPacked.unlist (s := offLists s h) (pendingPacked_congr (s := s) rfl (fun _ => rfl) (fun _ => rfl) p) lo h
    refine LanePacked.congr (s := unlist (offLists s h) h) (q m) (by rw [lp.only]) (by rw [lp.only]; rfl) fun g hg => ?_
    rw [lp.other]
    rintro rfl
    rw [unlist_occupants lo] at hg; simp at hg
  unfold listBehindAboard
  rw [if_pos room]
  refine ⟨b.moves sd packed id, fun o => b.holder o (fun _ _ _ hm => hm) fun m hm g gh hg => ?_⟩
  refine gh (o m g h hg.1 holder hg.2 ?_)
  have := hm.2
  unfold recHasMark at this ⊢
  rw [← lp.desc]; exact this

/-- A move's listing (R121). -/
theorem keeps_moveAboard {V : Prop} {s : State} {h : Handle} {l : Lane} (e : (getRec s h).state = .reserved)
    (can : canTake s l (some h) = true) :
    Keeps V s (listBehindAboard (unlist { s with reservations := s.reservations.filter (· != h) } h) h l) := by
  set u : State := { s with reservations := s.reservations.filter (· != h) } with hu
  refine .of_profile ?_ (fun w => ?_) (fun c => ?_) fun _ sd => ?_
  · exact (sameProfile_reservations s _).trans ((sameProfile_unlist u h).trans (sameProfile_listBehindAboard _ h l))
  · rw [listBehindAboard_only, unlist_only]; exact w.trials
  · have cu : TablesCanonical u := { c with reservations := fun g hg => c.reservations g (List.mem_filter.1 hg).1 }
    exact (cu.unlist h).listBehindAboard l (c.lt_of_rec fun x => by rw [x] at e; cases e)
  · refine LeftPending.follows (x := unlist u h) ?_ sd (by rw [e]; rfl) can
    rw [hu, ← offLists_res sd.agrees e]
    obtain ⟨o, c, k, x⟩ := unlist_eta (offLists s h) h h
    exact ⟨rfl, fun _ _ => rfl, by rw [x]; rfl⟩

/-- A conversion's listing (R123). -/
theorem keeps_convertAboard {V : Prop} {s : State} {h : Handle} {l : Lane} (e : (getRec s h).state = .offered)
    (can : canTake s l (some h) = true) :
    Keeps V s
      (let s1 := unlist { s with offers := s.offers.filter (· != h) } h
      listBehindAboard (setRec s1 h { getRec s1 h with forced := true }) h l) := by
  dsimp only
  set u : State := { s with offers := s.offers.filter (· != h) } with hu
  refine .of_profile ?_ (fun w => ?_) (fun c => ?_) fun _ sd => ?_
  · exact (sameProfile_offers s _).trans
      (((sameProfile_unlist u h).trans (sameProfile_setRec _ h _)).trans (sameProfile_listBehindAboard _ h l))
  · rw [listBehindAboard_only, setRec_only, unlist_only]; exact w.trials
  · have lt := c.lt_of_rec (h := h) fun x => by rw [x] at e; cases e
    have cu : TablesCanonical u := { c with offers := fun g hg => c.offers g (List.mem_filter.1 hg).1 }
    exact ((cu.unlist h).setRec _ lt).listBehindAboard l lt
  · refine LeftPending.follows ?_ sd (by rw [e]; rfl) can
    rw [hu, ← offLists_offer sd.agrees e]
    obtain ⟨o, c, k, x⟩ := unlist_eta (offLists s h) h h
    exact ⟨rfl, fun _ gh => getRec_setRec_other _ _ gh, by rw [getRec_setRec_self, x]; rfl⟩

/-- A blank record comes ABOARD (R128). -/
theorem follows_newAboard {a : State} {n : Handle} {l : Lane} {r : UnitRec} (sa : Sound a) (blank : getRec a n = freeRecord)
    (room : hasRoom a l = true) (marks : ∀ m, recHasMark m r = true → ∀ g, ¬ HoldsMark m (getRec a g)) :
    Follows a (listBehindAboard (setRec a n r) n l) := by
  have off : ∀ m, n ∉ occupantsOf a m := sa.agrees.not_listed (by rw [blank]; rfl)
  obtain ⟨nOffer, nRes, nTrial⟩ := not_mem_of_blank sa.agrees blank
  have nLeft : n ∉ a.departures := fun x => by have := (sa.agrees.left n).1 x; rw [blank] at this; cases this
  have b : BeforeAboard a (setRec a n r) n l :=
    { keep := fun g gh => ⟨_, _, _, getRec_setRec_other _ _ gh⟩
      occ := fun k => by rw [filter_ne_self (off k)]; rfl
      slot := hasRoom_slot room
      offers := (filter_ne_self nOffer).symm
      reservations := (filter_ne_self nRes).symm
      trials := (filter_ne_self nTrial).symm
      departures := (filter_ne_self nLeft).symm
      room := hasRoom_length room }
  unfold listBehindAboard
  rw [if_pos (show hasRoom (setRec a n r) l = true from room)]
  refine ⟨b.moves sa (fun p m _ => (p.setRec r off) m) id, fun o => b.holder o (fun _ _ _ hm => hm) fun m hm g _ => ?_⟩
  rw [getRec_setRec_self] at hm
  exact marks m hm.2 g

/-- A forced placement's listing (R127, R128). -/
theorem keeps_forcedAboard {V : Prop} {s a : State} {n : Handle} {l : Lane} {r : UnitRec} (e : allocate s = some (n, a))
    (can : canTake s l none = true) (marks : ∀ m, recHasMark m r = true → ∀ g, ¬ HoldsMark m (getRec s g)) :
    Keeps V s (listBehindAboard (setRec a n r) n l) := by
  refine .of_profile ?_ (fun w => ?_) (fun c => ?_) fun v sd => ?_
  · exact (sameProfile_allocate e).trans ((sameProfile_setRec a n r).trans (sameProfile_listBehindAboard _ n l))
  · rw [listBehindAboard_only, setRec_only, allocate_only e]; exact w.trials
  · obtain ⟨lt, ca⟩ := c.allocate e
    exact (ca.setRec r lt).listBehindAboard l lt
  · have ka : Keeps V s a := keeps_allocate e
    exact (ka.map v sd).trans (follows_newAboard (ka.sound v sd) (allocate_blank sd.tables e)
      (hasRoom_allocate e (canTake_new can)) fun m hm => not_holdsMark_allocate sd.tables e (marks m hm))

/-- An allocation does not choose a live record. -/
theorem allocate_ne {s a : State} {n h : Handle} (sd : Sound s) (e : allocate s = some (n, a))
    (live : isLive (getRec s h).state = true) : h ≠ n := by
  rintro rfl
  rcases allocate_cases e with ⟨-, rfl⟩ | ⟨d, hd, -⟩
  · rw [allocate_blank sd.tables e] at live; cases live
  · rw [(sd.agrees.left h).1 (hd ▸ List.mem_cons_self)] at live; cases live

/-- A restow's departure and listing (R125): the new record comes ABOARD as the old one departs. -/
theorem keeps_restowAboard {V : Prop} {s a : State} {n h : Handle} {l : Lane} {r : UnitRec} (e : allocate s = some (n, a))
    (can : canTake s l none = true) (ab : (getRec s h).state = .aboard)
    (desc : r.desc = (getRec s h).desc) :
    Keeps V s (listBehindAboard (makeLeft (setRec a n r) h) n l) := by
  have live : isLive (getRec s h).state = true := by rw [ab]; rfl
  refine .of_profile ?_ (fun w => ?_) (fun c => ?_) fun v sd => ?_
  · exact (sameProfile_allocate e).trans
      (((sameProfile_setRec a n r).trans (sameProfile_makeLeft _ h)).trans (sameProfile_listBehindAboard _ n l))
  · rw [listBehindAboard_only, makeLeft_only, setRec_only, allocate_only e]; exact w.trials
  · obtain ⟨lt, ca⟩ := c.allocate e
    exact ((ca.setRec r lt).makeLeft (c.lt_of_rec fun x => by rw [x] at ab; cases ab)).listBehindAboard l lt
  have hn : h ≠ n := allocate_ne sd e live
  have ka : Keeps V s a := keeps_allocate e
  have sa := ka.sound v sd
  have blank := allocate_blank sd.tables e
  have rh : getRec a h = getRec s h := by rw [allocate_rec sd.tables e, if_neg hn]
  have kl : Keeps V a (makeLeft a h) :=
    keeps_makeLeft (fun c => c.lt_of_rec fun x => by rw [← rh, x] at ab; cases ab) (by rw [rh]; exact ab)
  have sy := kl.sound v sa
  have fy := (ka.map v sd).trans (kl.map v sa)
  have off : ∀ m, n ∉ occupantsOf a m := sa.agrees.not_listed (by rw [blank]; rfl)
  have lo := sa.agrees.listedOnce
  have lo2 := lo.setRec r off
  obtain ⟨nOffer, nRes, nTrial⟩ := not_mem_of_blank sa.agrees blank
  have nLeft : n ∉ a.departures := fun x => by have := (sa.agrees.left n).1 x; rw [blank] at this; cases this
  set y := makeLeft a h with hy
  set x := makeLeft (setRec a n r) h with hx
  have occ : ∀ k, occupantsOf x k = occupantsOf y k := fun k => by
    rw [hx, hy, makeLeft_occupants lo2, makeLeft_occupants lo]; rfl
  have offY : ∀ k, n ∉ occupantsOf y k := fun k hm => by
    rw [hy, makeLeft_occupants lo] at hm; exact off k (List.mem_filter.1 hm).1
  have profile : SameProfile a x := (sameProfile_setRec a n r).trans (sameProfile_makeLeft _ h)
  have room : hasRoom x l = true := by
    refine profile.hasRoom ?_ (hasRoom_allocate e (canTake_new can))
    rw [hx, makeLeft_occupants lo2]
    exact List.length_filter_le ..
  have oy := makeLeft_only a h
  have ox := makeLeft_only (setRec a n r) h
  have dep : x.departures = y.departures := by
    have read : ∀ z : State, (makeLeft z h).departures = z.departures ++ [h] := fun z => by
      unfold makeLeft; dsimp only; rw [setRec_departures, unlist_only]
    rw [hx, hy, read, read]; rfl
  have b : BeforeAboard y x n l :=
    { keep := fun g gn => by
        by_cases gh : g = h
        · subst gh
          have lr : ∃ o c k, leftRecord (setRec a n r) g = { leftRecord a g with offset := o, centre := c, changed := k } := by
            obtain ⟨o, c, k, e1⟩ := unlist_eta (setRec a n r) g g
            obtain ⟨o', c', k', e2⟩ := unlist_eta a g g
            unfold leftRecord
            rw [e1, e2, getRec_setRec_other _ _ gn]
            exact ⟨o, c, true, rfl⟩
          rw [hx, hy, makeLeft_getRec, makeLeft_getRec, getRec_setRec_self, getRec_setRec_self]
          exact lr
        · obtain ⟨o, c, k, e1⟩ := makeLeft_eta (s := setRec a n r) gh
          obtain ⟨o', c', k', e2⟩ := makeLeft_eta (s := a) gh
          rw [hx, hy, e1, e2, getRec_setRec_other _ _ gn]
          exact ⟨o, c, k, rfl⟩
      occ := fun k => by rw [occ, filter_ne_self (offY k)]
      slot := hasRoom_slot room
      offers := by rw [hx, hy, ox, oy]; exact (filter_ne_self nOffer).symm
      reservations := by rw [hx, hy, ox, oy]; exact (filter_ne_self nRes).symm
      trials := by rw [hx, hy, ox, oy]; exact (filter_ne_self nTrial).symm
      departures := by
        rw [dep, filter_ne_self]
        intro hm
        have := (sy.agrees.left n).1 hm
        obtain ⟨o, c, k, e2⟩ := makeLeft_eta (s := a) (Ne.symm hn)
        rw [hy, e2, blank] at this; cases this
      room := hasRoom_length room }
  unfold listBehindAboard
  rw [if_pos room]
  have packed : PendingPacked s → ∀ m, m ≠ l → LanePacked x m := fun p m _ =>
    (PendingPacked.makeLeft (((ka.map v sd).packed p).setRec r off) lo2 h) m
  have sub : ∀ m g, g ≠ n → HoldsMark m (getRec y g) → g ≠ h ∧ HoldsMark m (getRec s g) := fun m g gn hm => by
    have gh : g ≠ h := by
      rintro rfl; have := hm.1; rw [hy, (makeLeft_rec a g).1] at this; cases this
    obtain ⟨o, c, k, e2⟩ := makeLeft_eta (s := a) gh
    rw [hy, e2, allocate_rec sd.tables e, if_neg gn] at hm
    exact ⟨gh, hm⟩
  refine ⟨b.moves sy packed fy.order, fun o => b.holder o (fun m g gn hm => (sub m g gn hm).2) fun m hm g gn hg => ?_⟩
  obtain ⟨gh, hg⟩ := sub m g gn hg
  have mark : recHasMark m (getRec s h) = true := by
    obtain ⟨o, c, k, e2⟩ := makeLeft_eta (s := setRec a n r) (Ne.symm hn)
    have := hm.2
    rw [hx, e2, getRec_setRec_self] at this
    unfold recHasMark at this ⊢
    rw [← desc]; exact this
  exact gh (o m g h hg.1 (by rw [ab]; rfl) hg.2 mark)

end Sys2Proof.Machine

namespace Sys2Proof.Machine

/-! ## A record touched beside what the conditions read -/

/-- A record is written with the state, lane, offset, deadline, mark, kind and length it had. -/
theorem keeps_touch {V : Prop} {s : State} {h : Handle} {r : UnitRec} (blank : getRec s h = freeRecord → r = freeRecord)
    (st : r.state = (getRec s h).state) (ln : r.lane = (getRec s h).lane) (dl : r.deadline = (getRec s h).deadline)
    (pk : packKey r = packKey (getRec s h)) (mk : ∀ m, recHasMark m r = recHasMark m (getRec s h)) :
    Keeps V s (setRec s h r) := by
  have same : ∀ {α : Type} (f : UnitRec → α), f r = f (getRec s h) → ∀ g, f (getRec (setRec s h r) g) = f (getRec s g) :=
    fun f e g => by
      rw [getRec_setRec]; split
      · rename_i gh; rw [gh, e]
      · rfl
  refine .of_profile (sameProfile_setRec s h r) (fun w => w.trials) (fun c => c.setRec_of_read blank) fun _ sd => ⟨?_, fun o => ?_⟩
  · exact
      { agrees := sd.agrees.of_same (fun g => ⟨same UnitRec.state st g, same UnitRec.lane ln g⟩) (fun _ => rfl) rfl rfl rfl rfl
        rooms := sd.rooms.of_same (fun _ => rfl) rfl rfl
        packed := pendingPacked_congr rfl (fun _ => rfl) (same packKey pk)
        order := reservationsInOrder_congr rfl (same UnitRec.deadline dl) }
  · refine o.of_sub fun m g hm => ?_
    unfold HoldsMark at hm ⊢
    rwa [same UnitRec.state st, same (recHasMark m) (mk m)] at hm

/-! ## The bid chain (chapter 4) -/

theorem descUnit_mark {d : Desc} {u : UnitDesc} (e : descUnit d = some u) : u.mark = descMark d := by
  unfold descUnit at e
  split at e
  · cases e
  · obtain ⟨k, -, rfl⟩ := Option.map_eq_some_iff.1 e; rfl

theorem descExactUnit_mark {d : Desc} {u : UnitDesc} (e : descExactUnit d = some u) : u.mark = descMark d := by
  unfold descExactUnit at e
  split at e
  · cases e
  · exact descUnit_mark e

theorem keeps_bidDuplicate {V : Prop} {s : State} {c : CheckIn} {h : Handle} (lt : TablesCanonical s → h < Config.unitRecords) :
    Keeps V s (bidDuplicate s c h).2 := by
  unfold bidDuplicate
  dsimp only
  split
  · exact .refl s
  · dsimp only; split
    · rename_i e; exact keeps_joinReservations lt e
    · exact .refl s

theorem keeps_bidCompete {V : Prop} {s : State} {c : CheckIn} {u : UnitDesc} (marks : ∀ g, ¬ HoldsMark u.mark (getRec s g)) :
    Keeps V s (bidCompete s c u).2 := by
  unfold bidCompete
  split
  · exact keeps_raiseNotice s _
  · split
    · exact .refl s
    · rename_i open_
      split
      · exact .refl s
      · rename_i b e
        split
        · exact keeps_placeOffer (hasRoom_of_best e) (by simpa using open_) marks
        · exact .refl s

theorem keeps_bidStep {V : Prop} (s : State) (c : CheckIn) : Keeps V s (bidStep s c).2 := by
  unfold bidStep
  split
  · exact .refl s
  · split
    · rename_i h e; exact keeps_bidDuplicate fun c => (findHolder_some c e).2
    · rename_i none
      split
      · exact .refl s
      · rename_i u e; exact keeps_bidCompete (descUnit_mark e ▸ findHolder_none none)

theorem matchingOffer_some {s : State} {c : Confirm} {h : Handle} (e : matchingOffer s c = some h) :
    h ∈ s.offers ∧ (getRec s h).state = .offered := by
  unfold matchingOffer at e
  have p := List.find?_some e
  rw [Bool.and_eq_true, Bool.and_eq_true, beq_iff_eq] at p
  exact ⟨List.mem_of_find?_eq_some e, p.1.1⟩

theorem lateEligible_room {s : State} {u : UnitDesc} {l : Lane} (e : lateEligible s u l = true) :
    hasRoom s l = true ∧ commitmentRoom s = true := by
  unfold lateEligible at e
  rw [Bool.and_eq_true, Bool.and_eq_true] at e
  obtain ⟨⟨-, fits⟩, room⟩ := e
  split at fits
  · cases fits
  · rename_i he; exact ⟨hasRoom_of_eligible he fits, room⟩

theorem keeps_lateConfirm {V : Prop} {s : State} {c : Confirm} {l : Lane} (none : findHolder s (descMark c.desc) = none) :
    Keeps V s (lateConfirm s c l).2 := by
  unfold lateConfirm
  split
  · rename_i u e
    obtain ⟨unit, ok, -⟩ := lateUnit_eq_some.1 e
    obtain ⟨room, few⟩ := lateEligible_room ok
    exact keeps_lateReserve room few (descExactUnit_mark unit ▸ findHolder_none none)
  · dsimp only; split
    · exact keeps_emitFwd s _
    · exact (keeps_raiseNotice s _).trans (keeps_emitFwd _ _)

theorem keeps_confirmWinner {V : Prop} (s : State) (c : Confirm) (l : Lane) : Keeps V s (confirmWinner s c l).2 := by
  unfold confirmWinner
  split
  · rename_i h e
    obtain ⟨mem, st⟩ := matchingOffer_some e
    dsimp only; split
    · exact (keeps_withdrawOffer st).trans (keeps_emitFwd _ _)
    · exact keeps_makeReserved mem st
  · split
    · split <;> exact .refl s
    · rename_i none; exact keeps_lateConfirm none

theorem keeps_confirmOther {V : Prop} (s : State) (c : Confirm) : Keeps V s (confirmOther s c) := by
  unfold confirmOther
  split
  · rename_i e; exact keeps_withdrawOffer (matchingOffer_some e).2
  · exact .refl s

theorem keeps_confirmStep {V : Prop} (s : State) (c : Confirm) : Keeps V s (confirmStep s c).2 := by
  unfold confirmStep
  split
  · split
    · exact keeps_confirmWinner s c _
    · exact keeps_confirmOther s c
  all_goals exact keeps_confirmOther s c

theorem keeps_holdUnit {V : Prop} (s : State) (c : Confirm) (r : NoneReason) : Keeps V s (holdUnit s c r) := by
  have lawful : HoldsLawful s.holds → HoldsLawful (holdUnit s c r).holds := fun h => holdUnit_lawful h c r
  unfold holdUnit at lawful ⊢
  split
  · exact keeps_emitFwd s _
  · rename_i open_
    split
    · exact keeps_emitFwd s _
    · rename_i retry
      dsimp only; split
      · rename_i room
        rw [if_neg open_, if_neg retry] at lawful
        dsimp only at lawful
        rw [if_pos room] at lawful
        exact keeps_holds s _ lawful
      · exact (keeps_emitFwd s _).trans (keeps_raiseNotice _ _)

theorem keeps_headConsume {V : Prop} (s : State) (c : Confirm) : Keeps V s (headConsume s c) := by
  unfold headConsume
  split
  · exact .refl s
  · exact keeps_holdUnit s c _
  all_goals exact .refl s

theorem keeps_stampState {V : Prop} (s : State) (c : CheckIn) : Keeps V s (stampState s c) := by
  have counted : Keeps V s { s with chainSeq := s.chainSeq + 1 } := Untouched.keeps {}
  refine counted.trans (keeps_holds _ _ fun h => ?_)
  split
  · exact h
  · exact holdsLawful_of_sublist h List.filter_sublist

theorem keeps_settleTail {V : Prop} (s : State) (c : CheckIn) : Keeps V s (settleTail s c) :=
  ((keeps_emitDown s _).trans (keeps_confirmStep _ _)).trans (keeps_emitRet _ _)

theorem keeps_settleSole {V : Prop} (s : State) (c : CheckIn) : Keeps V s (settleSole s c) :=
  ((keeps_emitDown s _).trans (keeps_confirmStep _ _)).trans (keeps_headConsume _ _)

theorem keeps_startRetry {V : Prop} (s : State) : Keeps V s (startRetry s) := by
  unfold startRetry
  split
  · exact .refl s
  · split
    · exact .refl s
    · rename_i e rest holds
      have popped : Keeps V s { s with holds := rest } :=
        keeps_holds s rest fun h => holdsLawful_of_sublist h (holds ▸ List.sublist_cons_self e rest)
      have bid := (popped.trans (keeps_stampState _ (retryFrame e))).trans
        (keeps_bidStep _ (stampFrame { s with holds := rest } (retryFrame e)))
      dsimp only
      split
      · exact bid.trans (keeps_settleSole _ _)
      · exact bid.trans (keeps_emitFwd _ _)

/-- A capacity-freed event keeps every condition (R105, R107). -/
theorem keeps_capacityFreed {V : Prop} (s : State) : Keeps V s (capacityFreed s) := by
  unfold capacityFreed
  split
  · exact keeps_emitRet s _
  · exact keeps_emitRet s _
  · exact keeps_startRetry s
  · exact keeps_startRetry s

theorem keeps_actCheckIn {V : Prop} (c : CheckIn) (s : State) : Keeps V s (actCheckIn c s) := by
  have stamped := (keeps_stampState (V := V) s c).trans (keeps_bidStep _ (stampFrame s c))
  unfold actCheckIn
  split
  · unfold checkInHead; split
    · exact keeps_emitFwd s _
    · exact stamped.trans (keeps_passDown _ _)
  · exact (keeps_bidStep s c).trans (keeps_passDown _ _)
  · exact (keeps_bidStep s c).trans (keeps_settleTail _ _)
  · unfold checkInSole; split
    · exact keeps_emitFwd s _
    · exact stamped.trans (keeps_settleSole _ _)

theorem keeps_actConfirm {V : Prop} (c : Confirm) (s : State) : Keeps V s (actConfirm c s) := by
  unfold actConfirm
  dsimp only
  split
  · exact (keeps_confirmStep s c).trans (keeps_headConsume _ _)
  · exact (keeps_confirmStep s c).trans (keeps_headConsume _ _)
  · exact (keeps_confirmStep s c).trans (keeps_passUp _ _)
  · exact (keeps_confirmStep s c).trans (keeps_passUp _ _)

theorem keeps_actFreed {V : Prop} (pos : Pos) (s : State) : Keeps V s (actFreed pos s) := by
  unfold actFreed
  split
  · exact keeps_passUp s _
  · exact keeps_passUp s _
  · exact keeps_startRetry s
  · exact keeps_startRetry s

/-! ## Tallies (chapter 6) -/

theorem keeps_unrecorded {V : Prop} (s : State) (m : Mark) (l : Lane) : Keeps V s (unrecorded s m l).st :=
  ((keeps_post ..).trans (keeps_setSuspect _ _ _)).trans (keeps_raiseNotice _ _)

theorem keeps_refusedForced {V : Prop} (s : State) : Keeps V s (refusedForced s) := by
  unfold refusedForced; split
  · exact .refl s
  · exact keeps_raiseNotice s _

theorem keeps_tallyCommit {V : Prop} {s : State} {m : Mark} {l : Lane} {h : Handle} (e : (getRec s h).state = .reserved)
    (ln : (getRec s h).lane = some l) : Keeps V s (tallyCommit s m l h).st :=
  (keeps_commit e ln).trans (keeps_judge ..)

theorem keeps_tallyMove {V : Prop} {s : State} {m : Mark} {l : Lane} {h : Handle} (e : (getRec s h).state = .reserved) :
    Keeps V s (tallyMove s m l h).st := by
  unfold tallyMove; split
  · rename_i can
    exact (((keeps_moveAboard e can).trans (keeps_post ..)).trans (keeps_postLimit ..)).trans (keeps_judge ..)
  · exact keeps_unrecorded s m l

theorem keeps_tallyConvert {V : Prop} {s : State} {m : Mark} {l : Lane} {h : Handle} (e : (getRec s h).state = .offered) :
    Keeps V s (tallyConvert s m l h).st := by
  unfold tallyConvert; split
  · rename_i can
    exact ((keeps_convertAboard e can).trans (keeps_post ..)).trans (keeps_judge ..)
  · exact keeps_unrecorded s m l

theorem keeps_tallyRestow {V : Prop} {s : State} {m : Mark} {l : Lane} {h : Handle} (e : (getRec s h).state = .aboard) :
    Keeps V s (tallyRestow s m l h).st := by
  unfold tallyRestow; split
  · rename_i can
    rw [Bool.and_eq_true] at can
    split
    · exact keeps_unrecorded s m l
    · rename_i n a alloc
      have aboard : Keeps V s _ := keeps_restowAboard alloc can.1 e (r := { freeRecord with
        state := .aboard, desc := (getRec s h).desc, forced := (getRec s h).forced, defaulted := (getRec s h).defaulted
        changed := true }) rfl
      dsimp only [recorded]
      exact (((aboard.trans (keeps_post ..)).trans (keeps_postExitOrder ..)).trans (keeps_postLimit ..)).trans (keeps_judge ..)
  · exact (keeps_refusedForced s).trans (keeps_unrecorded _ m l)

theorem keeps_tallyForced {V : Prop} {s : State} {m : Mark} {l : Lane} {d : Option Desc} (none : findHolder s m = none) :
    Keeps V s (tallyForced s m l d).st := by
  unfold tallyForced; split
  · rename_i can
    rw [Bool.and_eq_true] at can
    split
    · exact keeps_unrecorded s m l
    · rename_i n a alloc
      have mark : (forcedUnit s m d).1.mark = m := by unfold forcedUnit; split <;> rfl
      refine (((keeps_forcedAboard alloc can.1 fun m' hm => ?_).trans (keeps_post ..)).trans (keeps_postLimit ..)).trans
        (keeps_judge ..)
      have e : (forcedUnit s m d).1.mark = m' := Option.some.inj (eq_of_beq hm)
      rw [← e, mark]; exact findHolder_none none
  · exact (keeps_refusedForced s).trans (keeps_unrecorded _ m l)

theorem keeps_tallyOnAction {V : Prop} (s : State) (m : Mark) (l : Lane) (d : Option Desc) : Keeps V s (tallyOnAction s m l d).st := by
  unfold tallyOnAction
  split
  · rename_i none
    split
    · exact keeps_tallyForced none
    · exact .refl s
  · rename_i h found
    split
    · rename_i hold
      have e : (getRec s h).state = .reserved := by
        revert hold; cases (getRec s h).state <;> simp [holderState]
      split
      · exact keeps_dropReservation e
      · split
        · rename_i ln; exact keeps_tallyCommit e ln
        · exact keeps_tallyMove e
    · rename_i hold
      have e : (getRec s h).state = .offered := by
        revert hold; cases (getRec s h).state <;> simp [holderState]
      split
      · exact keeps_tallyConvert e
      · exact .refl s
    · rename_i hold
      have e : (getRec s h).state = .aboard := by
        revert hold; cases (getRec s h).state <;> simp [holderState]
      split
      · exact ((keeps_makeLeft (fun c => (findHolder_some c found).2) e).trans (keeps_post ..)).trans (keeps_postExitOrder ..)
      · split
        · exact .refl s
        · exact keeps_tallyRestow e
    · exact .refl s

theorem keeps_tallyOffAction {V : Prop} (s : State) (m : Mark) : Keeps V s (tallyOffAction s m).st := by
  unfold tallyOffAction
  split
  · exact .refl s
  · rename_i h found
    split
    · rename_i e
      exact (keeps_makeLeft (fun c => (findHolder_some c found).2) e).trans (keeps_postExitOrder ..)
    · exact .refl s

theorem keeps_postClosed {V : Prop} (s : State) (m : Mark) (l : Lane) (b : Bool) : Keeps V s (postClosed s m l b) := by
  unfold postClosed; split
  · exact keeps_post ..
  · exact .refl s

theorem keeps_detect {V : Prop} (s : State) (k : ExcKind) (m : Mark) (l : Lane) (b : Bool) : Keeps V s (detect s k m l b) := by
  unfold detect; split
  · exact keeps_post ..
  · exact .refl s

theorem keeps_tallyFreed {V : Prop} (s : State) (b : Bool) : Keeps V s (tallyFreed s b) := by
  unfold tallyFreed; split
  · exact keeps_capacityFreed s
  · exact .refl s

theorem keeps_actTallyOn {V : Prop} (m : Mark) (l : Lane) (d : Option Desc) (placed : Bool) (s : State) :
    Keeps V s (actTallyOn m l d placed s) := by
  unfold actTallyOn; split
  · exact keeps_passDown s _
  · exact ((((keeps_tallyOnAction s m l d).trans (keeps_postClosed ..)).trans (keeps_detect ..)).trans
      (keeps_passDown ..)).trans (keeps_tallyFreed ..)

theorem keeps_actTallyOff {V : Prop} (m : Mark) (l : Lane) (removed : Bool) (s : State) :
    Keeps V s (actTallyOff m l removed s) := by
  unfold actTallyOff; split
  · exact keeps_passDown s _
  · exact ((((keeps_tallyOffAction s m).trans (keeps_postClosed ..)).trans (keeps_detect ..)).trans
      (keeps_passDown ..)).trans (keeps_tallyFreed ..)

end Sys2Proof.Machine

namespace Sys2Proof.Machine

/-! ## Writes of the sections -/

/-- A write of a section of an id that a section can have. -/
theorem keeps_setSection {V : Prop} {s : State} {id : Nat} (e : SectionEntry) (h : TablesCanonical s → id ≤ 5) :
    Keeps V s (setSection s id e) where
  symmetric h := h
  tables c :=
    { c with
      sections := Table.rising_put c.sections
      ids := fun x hx => (Table.mem_put hx).elim (fun q => q ▸ h c) (c.ids x) }
  sizes _ w := { w with }
  map _ := SameMap.follows {}

/-- The id of a section found is one that a section can have. -/
theorem TablesCanonical.id_le {s : State} (c : TablesCanonical s) {id : Nat} {e : SectionEntry}
    (f : Table.find s.sections id = some e) : id ≤ 5 := c.ids _ (Table.find_mem f)

/-! ## Hoistable decks (chapter 7) -/

theorem keeps_postHeights {V : Prop} (hs : List (Lane × Handle)) : ∀ s : State, Keeps V s (postHeights hs s) := by
  induction hs with
  | nil => exact .refl
  | cons x hs ih => exact fun s => (keeps_post ..).trans (ih _)

theorem withdrawOffer_state (s : State) {h g : Handle} (gh : g ≠ h) :
    (getRec (withdrawOffer s h) g).state = (getRec s g).state :=
  (freeRec_keep { s with offers := s.offers.filter (· != h) } h g gh).1

/-- Offers withdrawn one after another, each of them still an offer when its turn comes. -/
theorem keeps_withdrawAll {V : Prop} (hs : List Handle) : ∀ s : State,
    Keeps (V ∧ hs.Nodup ∧ ∀ h ∈ hs, (getRec s h).state = .offered) s (withdrawAll hs s) := by
  induction hs with
  | nil => exact fun s => .refl s
  | cons h hs ih =>
    refine fun s => (keeps_withdrawListed fun v _ => v.2.2 h List.mem_cons_self).trans ((ih _).mono fun ⟨v, nd, off⟩ _ => ?_)
    rw [List.nodup_cons] at nd
    refine ⟨v, nd.2, fun g hg => ?_⟩
    rw [withdrawOffer_state s fun x => nd.1 (by rwa [x] at hg)]
    exact off g (List.mem_cons_of_mem _ hg)

theorem keeps_withdrawOffersIn {V : Prop} (s : State) (e : SectionEntry) : Keeps V s (withdrawAll (offersIn s e) s) :=
  (keeps_withdrawAll _ s).mono fun v sd => ⟨v, sd.agrees.distinct.1.filter _, fun h hm => by
    have p := (List.mem_filter.1 hm).2
    rw [Bool.and_eq_true, beq_iff_eq] at p
    exact p.1⟩

theorem keeps_downUnpermitted {V : Prop} {s : State} {id : Nat} {e : SectionEntry} (f : TablesCanonical s → id ≤ 5) :
    Keeps V s (downUnpermitted s id e) :=
  ((keeps_setSection _ f).trans (keeps_post ..)).trans (keeps_postHeights _ _)

theorem keeps_statusDown {V : Prop} {s : State} {id : Nat} {e : SectionEntry} (f : TablesCanonical s → id ≤ 5) :
    Keeps V s (statusDown s id e) := by
  unfold statusDown
  split
  · exact (keeps_setSection _ f).trans (keeps_capacityFreed _)
  · exact (keeps_setSection _ f).trans (keeps_post ..)
  · exact keeps_downUnpermitted f
  · exact keeps_downUnpermitted f
  · exact .refl s

theorem keeps_statusUp {V : Prop} {s : State} {id : Nat} {e : SectionEntry} (f : TablesCanonical s → id ≤ 5) :
    Keeps V s (statusUp s id e) := by
  unfold statusUp
  dsimp only
  split
  · exact keeps_setSection _ f
  · exact (keeps_setSection _ f).trans (keeps_post ..)
  · exact (keeps_setSection _ f).trans (keeps_post ..)
  · exact ((keeps_setSection _ f).trans (keeps_withdrawOffersIn _ e)).trans (keeps_post ..)
  · exact .refl s

theorem keeps_actHoistStatus {V : Prop} (target : Pos) (id : Nat) (down : Bool) (s : State) :
    Keeps V s (actHoistStatus target id down s) := by
  unfold actHoistStatus
  refine Keeps.trans ?_ (keeps_passDown _ _)
  split
  · split
    · exact .refl s
    · rename_i f
      split
      · exact keeps_statusDown fun c => c.id_le f
      · exact keeps_statusUp fun c => c.id_le f
  · exact .refl s

theorem keeps_expireTravel {V : Prop} {s : State} {id : Nat} {e : SectionEntry} (f : TablesCanonical s → id ≤ 5) :
    Keeps V s (expireTravel s id e) :=
  ((keeps_setSection _ f).trans (keeps_post ..)).trans (keeps_raiseNotice _ _)

theorem keeps_startMove {V : Prop} {s : State} {id : Nat} {e : SectionEntry} (st : HoistState) (move : HoistMove)
    (f : TablesCanonical s → id ≤ 5) : Keeps V s (startMove s id e st move).st :=
  (keeps_setSection _ f).trans (keeps_emitFwd _ _)

theorem keeps_actDeploy {V : Prop} (id : Nat) (s : State) : Keeps V s (actDeploy id s).st := by
  unfold actDeploy
  split
  · exact .refl s
  · split
    · exact .refl s
    · rename_i f
      split
      · exact .refl s
      · split
        · exact .refl s
        · exact keeps_startMove _ _ fun c => c.id_le f

theorem keeps_actStow {V : Prop} (id : Nat) (s : State) : Keeps V s (actStow id s).st := by
  unfold actStow
  split
  · exact .refl s
  · split
    · exact .refl s
    · rename_i f
      split
      · exact .refl s
      · split
        · exact .refl s
        · exact keeps_startMove _ _ fun c => c.id_le f

/-! ## Stowage reports (chapter 9) -/

theorem keeps_settleChanged {V : Prop} (s : State) (h : Handle) : Keeps V s (settleChanged s h) := by
  unfold settleChanged
  split
  · rename_i e; exact keeps_freeLeft e
  · exact keeps_touch (fun x => by rw [x]; rfl) rfl rfl rfl rfl fun _ => rfl

theorem keeps_settleAllChanged {V : Prop} (hs : List Handle) : ∀ s : State, Keeps V s (settleAllChanged hs s) := by
  induction hs with
  | nil => exact .refl
  | cons h hs ih => exact fun s => (keeps_settleChanged s h).trans (ih _)

theorem keeps_composeSection {V : Prop} (s : State) (c : Criterion) (held : Token) : Keeps V s (composeSection s c held) := by
  have emitted (x : State) (b : List ReportEntry) : Keeps V x { x with buffer := b, emitting := true, heldToken := some held } :=
    Untouched.keeps {}
  unfold composeSection
  refine Keeps.trans ?_ (emitted _ _)
  split
  · exact keeps_settleAllChanged _ s
  · exact .refl s

theorem keeps_actReport {V : Prop} (cf : CriterionField) (s : State) : Keeps V s (actReport cf s).st := by
  unfold actReport
  split
  · exact .refl s
  · split
    · exact .refl s
    · split
      · exact .refl s
      · rename_i c _ _
        have serial : Keeps V s { s with
            reportSerial := s.reportSerial + 1, report := some (s.reportSerial + 1, c), reportState := .sending } :=
          Untouched.keeps {}
        exact serial.trans (keeps_composeSection ..)

theorem keeps_endEarlierSection {V : Prop} (s : State) : Keeps V s (endEarlierSection s) := by
  unfold endEarlierSection
  split
  · exact Untouched.keeps {}
  · exact .refl s

theorem keeps_takeToken {V : Prop} (s : State) (t : Token) : Keeps V s (takeToken s t) :=
  ((keeps_endEarlierSection s).trans (keeps_composeSection ..)).trans (keeps_emitRet _ _)

theorem keeps_actReportToken {V : Prop} (t : Token) (s : State) : Keeps V s (actReportToken t s) := by
  unfold actReportToken
  split
  · exact keeps_takeToken s t
  · exact keeps_takeToken s t
  · exact keeps_passDown s _
  · exact keeps_passDown s _

theorem keeps_actTrailer {V : Prop} (serial : Byte) (count : Nat) (s : State) : Keeps V s (actTrailer serial count s) := by
  unfold actTrailer
  refine Keeps.trans ?_ (keeps_passUp _ _)
  split
  · exact keeps_endReport s
  · exact .refl s

theorem keeps_passToken {V : Prop} (s : State) (t : Token) : Keeps V s (passToken s t) := by
  unfold passToken
  split <;> exact Untouched.keeps {}

theorem keeps_advanceSection {V : Prop} (s : State) : Keeps V s (advanceSection s) := by
  unfold advanceSection
  split
  · exact .refl s
  · split
    · exact keeps_passToken s _
    · exact keeps_emitRet s _

theorem keeps_reportSent {V : Prop} (s : State) (f : Frame) : Keeps V s (reportSent s f) := by
  have dropped : Keeps V s { s with buffer := s.buffer.drop Config.recordsPerFrame } := Untouched.keeps {}
  unfold reportSent
  split
  · split
    · exact keeps_advanceSection s
    · exact .refl s
  · split
    · exact dropped.trans (keeps_advanceSection _)
    · exact .refl s
  · split
    · exact keeps_endReport s
    · exact .refl s
  · exact .refl s

theorem keeps_abandonQuietly {V : Prop} (s : State) : Keeps V s (abandonQuietly s) := by
  unfold abandonQuietly dropSection endReport
  exact Untouched.keeps {}

theorem keeps_abandonReport {V : Prop} (s : State) : Keeps V s (abandonReport s) :=
  (keeps_abandonQuietly s).trans (keeps_emitAllRet _ _)

theorem keeps_sendFwd {V : Prop} (s : State) : Keeps V s (sendFwd s) := by
  unfold sendFwd
  split
  · exact .refl s
  · exact Untouched.keeps {}
  · exact Untouched.keeps {}

theorem keeps_sendRet {V : Prop} (s : State) : Keeps V s (sendRet s) := by
  unfold sendRet
  split
  · exact .refl s
  · exact Untouched.keeps {}
  · split
    · exact .refl s
    · rename_i f t _
      have sent : Keeps V s { s with origRet := t, lastRet := .originated, drivenRet := some (driven f) } := Untouched.keeps {}
      exact sent.trans (keeps_reportSent _ f)

/-! ## Orders -/

theorem keeps_actLaneMask {V : Prop} (lanes : BitVec 256) (action : Admin) (s : State) :
    Keeps V s (actLaneMask lanes action s) := by
  have masked : Keeps V s { s with lanes := s.lanes.mapIdx fun i x => maskSlot lanes action (s.rangeBase + i) x } := by
    refine Untouched.keeps { occupants := ?_ }
    refine List.ext_getElem (by simp) fun i h1 h2 => ?_
    rw [List.getElem_map, List.getElem_map, List.getElem_mapIdx]
    unfold maskSlot; split <;> rfl
  unfold actLaneMask
  dsimp only
  split
  · exact masked.trans (keeps_capacityFreed _)
  · exact masked

/-- A whole list of handles freed, the list itself emptied first: `set` writes that list, `front` is the freeing of its first
member. -/
theorem keeps_freeAll {V : Prop} (set : State → List Handle → State)
    (front : ∀ s h t, Keeps V (set s (h :: t)) (freeRec (set s t) h))
    (freed : ∀ s h t, freeRec (set s t) h = set (freeRec s h) t) (hs : List Handle) :
    ∀ s, Keeps V (set s hs) (freeAll hs (set s [])) := by
  induction hs with
  | nil => exact fun s => .refl _
  | cons h hs ih =>
    intro s
    rw [freeAll, freed]
    exact (freed s h hs ▸ front s h hs).trans (ih (freeRec s h))

theorem keeps_withdrawOffers {V : Prop} (s : State) : Keeps V s (withdrawOffers s) :=
  keeps_freeAll (fun s l => { s with offers := l }) (fun _ _ _ => keeps_freeOffer rfl)
    (fun s h t => freeRec_lists s h t s.reservations s.trials ▸ by rw [freeRec_only]) s.offers s

theorem keeps_freeReservations {V : Prop} (s : State) : Keeps V s (freeReservations s) :=
  keeps_freeAll (fun s l => { s with reservations := l }) (fun _ _ _ => keeps_freeReservation rfl)
    (fun s h t => freeRec_lists s h s.offers t s.trials ▸ by rw [freeRec_only]) s.reservations s

theorem keeps_discardTrials {V : Prop} (s : State) : Keeps V s (discardTrials s) :=
  keeps_freeAll (fun s l => { s with trials := l }) (fun _ _ _ => keeps_freeTrial rfl)
    (fun s h t => freeRec_lists s h s.offers s.reservations t ▸ by rw [freeRec_only]) s.trials s

theorem keeps_shutHolds {V : Prop} (s : State) (r : ShutReason) : Keeps V s (shutHolds s r) := by
  unfold shutHolds
  split
  · exact (keeps_holds s [] fun h => holdsLawful_of_sublist h (List.nil_sublist _)).trans (keeps_emitAllFwd _ _)
  · exact .refl s

theorem keeps_actSeal {V : Prop} (s : State) : Keeps V s (actSeal s) := by
  have closed : Keeps V s { s with voyage := .closed } := Untouched.keeps {}
  unfold actSeal
  split
  · exact (((closed.trans (keeps_withdrawOffers _)).trans (keeps_freeReservations _)).trans (keeps_discardTrials _)).trans
      (keeps_shutHolds _ _)
  · exact .refl s

theorem keeps_actAbort {V : Prop} (s : State) : Keeps V s (actAbort s) := by
  have cleared (x : State) : Keeps V x { x with pendingClear := false } := Untouched.keeps {}
  exact ((((keeps_withdrawOffers s).trans (keeps_discardTrials _)).trans (keeps_shutHolds _ _)).trans
    (keeps_abandonReport _)).trans (cleared _)

/-- A record's rank falls, whatever else its description says standing. -/
theorem keeps_advanceRec {V : Prop} (l : Lane) (s : State) (h : Handle) : Keeps V s (advanceRec l s h) := by
  unfold advanceRec
  dsimp only
  split
  · exact keeps_post ..
  · refine keeps_touch (fun x => by rw [x]; rfl) rfl rfl rfl ?_ fun m => ?_
    · unfold packKey recKind recLength; dsimp only; rw [Option.map_map, Option.map_map]; rfl
    · unfold recHasMark; dsimp only; rw [Option.map_map]; rfl

theorem keeps_advanceLane {V : Prop} (l : Lane) (hs : List Handle) : ∀ s : State, Keeps V s (advanceLane l hs s) := by
  induction hs with
  | nil => exact .refl
  | cons h hs ih =>
    intro s
    refine Keeps.trans ?_ (ih _)
    split
    · exact keeps_advanceRec l s h
    · exact .refl s

theorem keeps_advanceLanes {V : Prop} (xs : List (Lane × LaneSlot)) : ∀ s : State, Keeps V s (advanceLanes xs s) := by
  induction xs with
  | nil => exact .refl
  | cons x xs ih => exact fun s => (keeps_advanceLane ..).trans (ih _)

theorem keeps_actUnseal {V : Prop} (advance : Bool) (s : State) : Keeps V s (actUnseal advance s) := by
  have opened : Keeps V s { s with voyage := .opened } := Untouched.keeps {}
  unfold actUnseal
  split
  · dsimp only; split
    · exact opened.trans (keeps_advanceLanes _ _)
    · exact opened
  · exact .refl s

theorem keeps_cancelHeld {V : Prop} (s : State) (m : Mark) : Keeps V s (cancelHeld s m) := by
  unfold cancelHeld
  split
  · exact (keeps_holds s _ fun h => holdsLawful_of_sublist h List.filter_sublist).trans (keeps_emitFwd _ _)
  · exact .refl s

theorem holderState_reserved {st : RecState} (h : holderState st = some .reserved) : st = .reserved := by
  cases st <;> simp [holderState] at h ⊢

theorem keeps_actCancel {V : Prop} (m : Mark) (s : State) : Keeps V s (actCancel m s) := by
  unfold actCancel
  dsimp only
  refine (keeps_cancelHeld s m).trans ?_
  split
  · exact .refl _
  · split
    · rename_i hold
      exact ((keeps_dropReservation (holderState_reserved hold)).trans (keeps_emitFwd _ _)).trans (keeps_capacityFreed _)
    · rename_i hold
      refine keeps_touch (fun x => ?_) rfl rfl rfl rfl fun _ => rfl
      rw [x] at hold; cases hold
    · exact .refl _
    · exact .refl _

/-! ## Time -/

theorem reservationExpired_state {s : State} {h : Handle} (e : reservationExpired s h = true) :
    (getRec s h).state = .reserved := by
  unfold reservationExpired at e
  rw [Bool.and_eq_true, beq_iff_eq] at e
  exact e.1

theorem keeps_lapse {V : Prop} {s : State} {h : Handle} (e : nextLapse s = some h) : Keeps V s (lapse s h) :=
  (((keeps_dropReservation (reservationExpired_state (nextLapse_some e).1)).trans (keeps_emitFwd _ _)).trans
    (keeps_raiseNotice _ _)).trans
    (keeps_capacityFreed _)

theorem Table.find_map {α β : Type} (f : α → β) (t : List (Nat × α)) (k : Nat) :
    Table.find (t.map fun e => (e.1, f e.2)) k = (Table.find t k).map f := by
  induction t with
  | nil => rfl
  | cons x t ih =>
    simp only [List.map_cons, Table.find]
    split
    · rfl
    · exact ih

theorem getRec_tickState (s : State) (h : Handle) : getRec (tickState s) h = tickRecord (getRec s h) := by
  unfold getRec tickState
  rw [Table.find_map]
  cases Table.find s.records h <;> rfl

/-- Only a FREE record is FREE a tick on. -/
theorem tickRecord_free {r : UnitRec} (e : tickRecord r = freeRecord) : r = freeRecord := by
  have none : r.deadline = none := by
    have := congrArg UnitRec.deadline e
    cases d : r.deadline with
    | none => rfl
    | some k => simp [tickRecord, tickCount, d, freeRecord] at this
  have same : tickRecord r = r := by unfold tickRecord; rw [none]; rcases r with ⟨⟩; simp_all [tickCount]
  rw [← same]; exact e

theorem ticksLeft_tickState (s : State) (h : Handle) : ticksLeft (tickState s) h = ticksLeft s h - 1 := by
  unfold ticksLeft
  rw [getRec_tickState]
  unfold tickRecord tickCount
  cases (getRec s h).deadline <;> simp

theorem keeps_tickState {V : Prop} (s : State) : Keeps V s (tickState s) where
  symmetric h := h
  tables c :=
    { c with
      records := Table.rising_map _ c.records
      sections := Table.rising_map _ c.sections
      ids := fun e he => by obtain ⟨x, hx, rfl⟩ := List.mem_map.1 he; exact c.ids x hx
      listed := fun e he => by
        obtain ⟨x, hx, rfl⟩ := List.mem_map.1 he; exact fun q => c.listed x hx (tickRecord_free q)
      handles := fun e he => by obtain ⟨x, hx, rfl⟩ := List.mem_map.1 he; exact c.handles x hx }
  sizes _ w := { w with }
  map _ sd :=
    { agrees := sd.agrees.of_same (fun g => by rw [getRec_tickState]; exact ⟨rfl, rfl⟩) (fun _ => rfl) rfl rfl rfl rfl
      rooms := sd.rooms.of_same (fun _ => rfl) rfl rfl
      packed := pendingPacked_congr rfl (fun _ => rfl) fun g => by rw [getRec_tickState]; rfl
      order := fun o => o.imp fun le => by rw [ticksLeft_tickState, ticksLeft_tickState]; exact Nat.sub_le_sub_right le 1
      holder := fun o => o.of_sub fun m g hm => by rw [getRec_tickState] at hm; exact hm }

end Sys2Proof.Machine

namespace Sys2Proof.Machine

/-! ## States without cargo -/

/-- No record, no departure, and every list empty. -/
structure Blank (t : State) : Prop where
  records : t.records = []
  lanes : ∀ x ∈ t.lanes, x.occupants = []
  departures : t.departures = []
  offers : t.offers = []
  reservations : t.reservations = []
  trials : t.trials = []

theorem Blank.getRec {t : State} (b : Blank t) (h : Handle) : getRec t h = freeRecord := by
  unfold Machine.getRec; rw [b.records]; rfl

theorem Blank.occupantsOf {t : State} (b : Blank t) (l : Lane) : occupantsOf t l = [] :=
  List.eq_nil_iff_forall_not_mem.2 fun h hm => by
    obtain ⟨x, hx, hh⟩ := occupantsOf_mem hm
    rw [b.lanes x hx] at hh; cases hh

theorem Blank.agrees {t : State} (b : Blank t) : MapAgrees t where
  listed l h := by rw [b.occupantsOf, b.getRec]; exact ⟨nofun, nofun⟩
  placed h e := by rw [b.getRec] at e; cases e
  once l := by rw [b.occupantsOf]; exact .nil
  order l := by rw [b.occupantsOf]; rfl
  offered h := by rw [b.offers, b.getRec]; exact ⟨nofun, nofun⟩
  reserved h := by rw [b.reservations, b.getRec]; exact ⟨nofun, nofun⟩
  trial h := by rw [b.trials, b.getRec]; exact ⟨nofun, nofun⟩
  left h := by rw [b.departures, b.getRec]; exact ⟨nofun, nofun⟩
  distinct := by rw [b.offers, b.reservations, b.trials, b.departures]; exact ⟨.nil, .nil, .nil, .nil⟩

theorem Blank.rooms {t : State} (b : Blank t) : WithinRooms t where
  occupants l := by rw [b.occupantsOf]; exact Nat.zero_le _
  offers := by rw [b.offers]; exact Nat.zero_le _
  commitments := by rw [b.offers, b.reservations]; exact Nat.zero_le _

theorem Blank.packed {t : State} (b : Blank t) : PendingPacked t := fun l => by rw [b.occupantsOf]; rfl

theorem Blank.order {t : State} (b : Blank t) : ReservationsInOrder t := by
  unfold ReservationsInOrder; rw [b.reservations]; exact .nil

theorem Blank.holder {t : State} (b : Blank t) : OneHolder t := fun _ g _ hg => by rw [b.getRec] at hg; cases hg

theorem Blank.follows {t : State} (b : Blank t) (s : State) : Follows s t :=
  ⟨⟨b.agrees, b.rooms, fun _ => b.packed, fun _ => b.order⟩, fun _ => b.holder⟩

/-- No handle is listed in a state without cargo. -/
theorem Blank.tables {t : State} (b : Blank t) (decks : Table.rising t.decks = true) (sections : Table.rising t.sections = true)
    (segregation : Table.rising t.segregation = true) (ids : ∀ e ∈ t.sections, e.1 ≤ 5)
    (codes : ∀ e ∈ t.segregation, e.2 ≠ .none) : TablesCanonical t where
  records := by rw [b.records]; rfl
  decks := decks
  sections := sections
  segregation := segregation
  ids := ids
  listed := by rw [b.records]; exact List.forall_mem_nil _
  codes := codes
  handles := by rw [b.records]; exact List.forall_mem_nil _
  occupants x hx := by rw [b.lanes x hx]; exact List.forall_mem_nil _
  departures := by rw [b.departures]; exact List.forall_mem_nil _
  offers := by rw [b.offers]; exact List.forall_mem_nil _
  reservations := by rw [b.reservations]; exact List.forall_mem_nil _
  trials := by rw [b.trials]; exact List.forall_mem_nil _

theorem VoyageConsistent.blank {s : State} (v : VoyageConsistent s) (e : inSetup s = true) : Blank s := by
  have setup : s.voyage = .setup := eq_of_beq e
  have shut : s.voyage ≠ .opened := by rw [setup]; exact nofun
  exact ⟨v.records setup, v.lanes setup, v.departures setup, v.offers shut, v.reservations shut, v.trials shut⟩

/-! ## Power and voyages -/

theorem holdsLawful_nil : HoldsLawful [] := ⟨Nat.zero_le _, .nil, nofun⟩

theorem blank_powerOn (r : Role) (p : Pos) (k : List Instr) : Blank { powerOnState r p with pending := k } :=
  ⟨rfl, List.forall_mem_nil _, rfl, rfl, rfl, rfl⟩

theorem tables_powerOn (r : Role) (p : Pos) (k : List Instr) : TablesCanonical { powerOnState r p with pending := k } :=
  (blank_powerOn r p k).tables rfl rfl rfl (List.forall_mem_nil _) (List.forall_mem_nil _)

theorem sizes_powerOn (r : Role) (p : Pos) (k : List Instr) : WithinSizes { powerOnState r p with pending := k } :=
  ⟨Nat.zero_le _, Nat.zero_le _, Nat.zero_le _, Nat.zero_le _, Nat.zero_le _, holdsLawful_nil, Nat.zero_le _⟩

theorem symmetric_powerOn (r : Role) (p : Pos) (k : List Instr) :
    SegregationSymmetric { powerOnState r p with pending := k } := fun _ _ _ _ _ _ => rfl

theorem keeps_powerOn {V : Prop} (s : State) (r : Role) (p : Pos) (k : List Instr) :
    Keeps V s { powerOnState r p with pending := k } where
  symmetric _ := symmetric_powerOn r p k
  tables _ := tables_powerOn r p k
  sizes _ _ := sizes_powerOn r p k
  map _ _ := (blank_powerOn r p k).follows s

theorem blank_cleared (s : State) : Blank (clearedState s) where
  records := rfl
  lanes x hx := by obtain ⟨y, -, rfl⟩ := List.mem_map.1 hx; rfl
  departures := rfl
  offers := rfl
  reservations := rfl
  trials := rfl

theorem keeps_clearedState {V : Prop} (s : State) : Keeps V s (clearedState s) where
  symmetric h := h
  tables c := (blank_cleared s).tables c.decks (Table.rising_map _ c.sections) c.segregation
    (fun e he => by obtain ⟨x, hx, rfl⟩ := List.mem_map.1 he; exact c.ids x hx) c.codes
  sizes _ w := { w with
    lanes := by unfold clearedState; rw [List.length_map]; exact w.lanes
    holds := holdsLawful_nil
    trials := Nat.zero_le _ }
  map _ _ := (blank_cleared s).follows s

theorem keeps_actClearVoyage {V : Prop} (s : State) : Keeps V s (actClearVoyage s).st := by
  unfold actClearVoyage
  split
  · exact .refl s
  · split
    · unfold clearSecond
      dsimp only
      have quiet : Keeps V s (abandonQuietly (clearedState s)) := (keeps_clearedState s).trans (keeps_abandonQuietly _)
      split
      · exact quiet.trans (keeps_emitAllRet _ _)
      · exact quiet
    · exact Untouched.keeps {}

theorem keeps_actOpenVoyage {V : Prop} (s : State) : Keeps V s (actOpenVoyage s).st := by
  unfold actOpenVoyage
  split
  · exact .refl s
  · split
    · exact .refl s
    · exact Untouched.keeps (t := { s with voyage := .opened }) {}

theorem keeps_actBallast {V : Prop} (heel trim : BitVec 32) (s : State) : Keeps V s (actBallast heel trim s).st := by
  have moved : Keeps V s { s with heelOffset := clampOffset heel, trimOffset := clampOffset trim } := Untouched.keeps {}
  unfold actBallast
  split
  · exact .refl s
  · exact moved.trans (keeps_testStability _)

/-! ## Trials (chapter 5) -/

theorem keeps_actUndo {V : Prop} (s : State) : Keeps V s (actUndo s).st := by
  unfold actUndo
  split
  · exact .refl s
  · rename_i l; exact keeps_freeTrial l

theorem keeps_placeTrial {V : Prop} {s : State} {u : UnitDesc} {b : Best} (best : bestLane s u = some b)
    (few : s.trials.length < Config.trialCapacity) : Keeps V s (placeTrial s u b).st := by
  unfold placeTrial
  split
  · exact keeps_raiseNotice s _
  · rename_i e; exact keeps_pushTrial e (hasRoom_of_best best) few

theorem keeps_actTrial {V : Prop} (d : Desc) (s : State) : Keeps V s (actTrial d s).st := by
  unfold actTrial
  split
  · exact .refl s
  · split
    · exact .refl s
    · split
      · exact .refl s
      · rename_i few
        split
        · exact .refl s
        · split
          · exact keeps_raiseNotice s _
          · split
            · exact .refl s
            · rename_i best; exact keeps_placeTrial best (Nat.lt_of_not_le few)

/-- The top trial of a stack made RESERVED (R114). -/
theorem keeps_convertTrial {V : Prop} {s : State} {h : Handle} {rest : List Handle} (l : s.trials = h :: rest)
    (none : findHolder s (recMark (getRec s h)) = none)
    (room : V → s.offers.length + s.reservations.length + 1 ≤ Config.commitmentCapacity) :
    Keeps V s (makeReserved { s with trials := rest } h) := by
  refine .of_profile ?_ (fun w => ?_) (fun c => ?_) fun v sd => ?_
  · exact (sameProfile_trials s _).trans (sameProfile_makeReserved _ h)
  · rw [makeReserved_only]; exact (Nat.le_succ rest.length).trans (by have := w.trials; rwa [l] at this)
  · exact TablesCanonical.makeReserved (s := { s with trials := rest })
      { c with trials := fun g hg => c.trials g (l ▸ List.mem_cons_of_mem _ hg) } (c.trials h (l ▸ List.mem_cons_self))
  · have e : (getRec s h).state = .trial := (sd.agrees.trial h).1 (l ▸ List.mem_cons_self)
    have off : offLists s h = { s with trials := rest } := by
      rw [offLists_trial sd.agrees e, filter_ne_head l sd.agrees.distinct.2.2.1]
    rw [← off]
    refine follows_makeReserved sd (.inr e) ?_ fun m hm => .inr ?_
    · rw [sd.agrees.off_list.1 (by rw [e]; exact nofun)]; exact room v
    · have mark : recMark (getRec s h) = m := by
        unfold recHasMark at hm; unfold recMark; rw [eq_of_beq hm]; rfl
      rw [← mark]; exact findHolder_none none

/-- What a trial of the stack becomes. -/
def commitOne (s : State) (h : Handle) : State := if trialDiscarded s h then freeRec s h else makeReserved s h

theorem commitEach_cons (h : Handle) (hs : List Handle) (c : Committed) :
    ∃ n d, commitEach (h :: hs) c = commitEach hs { st := commitOne c.st h, converted := n, discarded := d } := by
  unfold commitOne
  rw [commitEach]
  split <;> exact ⟨_, _, rfl⟩

theorem commitOne_trials (s : State) (h : Handle) (t : List Handle) :
    commitOne { s with trials := t } h = { commitOne s h with trials := t } := by
  have same : trialDiscarded { s with trials := t } h = trialDiscarded s h := rfl
  unfold commitOne
  rw [same]
  split
  · exact (freeRec_lists s h s.offers s.reservations t).trans (by rw [freeRec_only])
  · rfl

theorem commitOne_lengths (s : State) (h : Handle) : (commitOne s h).trials = s.trials
    ∧ (commitOne s h).offers.length + (commitOne s h).reservations.length ≤ s.offers.length + s.reservations.length + 1 := by
  unfold commitOne
  split
  · rw [freeRec_only]; exact ⟨rfl, Nat.le_succ _⟩
  · refine ⟨by rw [makeReserved_only], ?_⟩
    have offers : (makeReserved s h).offers = s.offers := by rw [makeReserved_only]
    have joined : (makeReserved s h).reservations.length ≤ s.reservations.length + 1 :=
      (joinReservations_length h).trans_le (Nat.add_le_add_right (List.length_filter_le ..) 1)
    rw [offers]; omega

theorem keeps_commitOne {V : Prop} {s : State} {h : Handle} {hs : List Handle} (l : s.trials = h :: hs)
    (room : V → s.offers.length + s.reservations.length + 1 ≤ Config.commitmentCapacity) :
    Keeps V s (commitOne { s with trials := hs } h) := by
  unfold commitOne
  split
  · exact keeps_freeTrial l
  · rename_i kept
    refine keeps_convertTrial l (Option.not_isSome_iff_eq_none.1 fun holder => kept ?_) room
    unfold trialDiscarded; rw [Bool.or_eq_true]; exact .inl holder

/-- The trials taken one after another: the stack holds the ones not taken yet, and offers, reservations and trials stay
together within their room (R114). -/
theorem keeps_commitEach {V : Prop} (hs : List Handle) : ∀ c : Committed, c.st.trials = [] →
    Keeps (V ∧ c.st.offers.length + c.st.reservations.length + hs.length ≤ Config.commitmentCapacity)
      { c.st with trials := hs } (commitEach hs c).st := by
  induction hs with
  | nil =>
    intro c empty
    have same : { c.st with trials := [] } = c.st := by rw [← empty]
    rw [same]; exact .refl _
  | cons h hs ih =>
    intro c empty
    obtain ⟨n, d, e⟩ := commitEach_cons h hs c
    obtain ⟨trials, few⟩ := commitOne_lengths c.st h
    have one : Keeps (V ∧ c.st.offers.length + c.st.reservations.length + (h :: hs).length ≤ Config.commitmentCapacity)
        { c.st with trials := h :: hs } (commitOne { c.st with trials := hs } h) :=
      keeps_commitOne rfl fun few => (Nat.add_le_add_left (Nat.le_add_left 1 hs.length) _).trans few.2
    rw [commitOne_trials] at one
    rw [e]
    refine one.trans ?_
    have rest := ih { st := commitOne c.st h, converted := n, discarded := d } (trials.trans empty)
    refine rest.mono fun ⟨v, room⟩ _ => ⟨v, ?_⟩
    rw [List.length_cons] at room
    dsimp only
    omega

theorem keeps_actCommitTrials {V : Prop} (s : State) : Keeps V s (actCommitTrials s).st := by
  unfold actCommitTrials
  split
  · exact .refl s
  · rename_i room
    have turned : Keeps V s { s with trials := s.trials.reverse } :=
      { symmetric := id
        tables := fun c => { c with trials := fun h hm => c.trials h (List.mem_reverse.1 hm) }
        sizes := fun _ w => { w with trials := by rw [List.length_reverse]; exact w.trials }
        map := fun _ sd =>
          { agrees :=
              { sd.agrees with
                trial := fun h => List.mem_reverse.trans (sd.agrees.trial h)
                distinct := ⟨sd.agrees.distinct.1, sd.agrees.distinct.2.1, List.nodup_reverse.2 sd.agrees.distinct.2.2.1,
                  sd.agrees.distinct.2.2.2⟩ }
            rooms := { sd.rooms with }
            packed := pendingPacked_congr rfl (fun _ => rfl) fun _ => rfl
            order := reservationsInOrder_congr rfl fun _ => rfl
            holder := oneHolder_congr fun _ => rfl } }
    refine turned.trans ((keeps_commitEach s.trials.reverse { st := { s with trials := [] }, converted := 0, discarded := 0 }
      rfl).mono fun v _ => ⟨v, ?_⟩)
    rw [List.length_reverse]
    exact Nat.le_of_not_lt room

end Sys2Proof.Machine

namespace Sys2Proof.Machine

/-! ## The segregation matrix as a table (R14) -/

/-- What a table of codes answers at a key, NONE where it lists none. -/
def segAt (m : List (Nat × SegCode)) (k : Nat) : SegCode := (Table.find m k).getD .none

theorem segGet_eq (s : State) (c d : Nat) : segGet s c d = segAt s.segregation (segKey c d) := rfl

theorem segAt_segPut (k : Nat) (code : SegCode) (m : List (Nat × SegCode)) (j : Nat) :
    segAt (segPut k code m) j = if j = k then code else segAt m j := by
  unfold segAt segPut
  split
  · rename_i none
    split
    · rename_i jk; rw [jk, Table.find_drop_self, none]; rfl
    · rename_i jk; rw [Table.find_drop_other _ jk]
  · split
    · rename_i jk; rw [jk, Table.find_put_self]; rfl
    · rename_i jk; rw [Table.find_put_other _ _ jk]

/-- The code that a triple writes. -/
def tripleCode (t : Nat × Nat × Nat) : SegCode := (segOfCode t.2.2).getD .none

theorem segAt_applyTriple (m : List (Nat × SegCode)) (t : Nat × Nat × Nat) (j : Nat) :
    segAt (applyTriple m t) j
      = if j = segKey t.1 t.2.1 ∨ j = segKey t.2.1 t.1 then tripleCode t else segAt m j := by
  unfold applyTriple
  rw [segAt_segPut, segAt_segPut]
  by_cases back : j = segKey t.2.1 t.1
  · rw [if_pos back, if_pos (.inr back)]; rfl
  · rw [if_neg back]
    by_cases forth : j = segKey t.1 t.2.1
    · rw [if_pos forth, if_pos (.inl forth)]; rfl
    · rw [if_neg forth, if_neg (by tauto)]

theorem segKey_inj {a b c d : Nat} (hb : b ≤ 15) (hd : d ≤ 15) : segKey a b = segKey c d ↔ a = c ∧ b = d := by
  unfold segKey; omega

/-- A triple is read at its classes, in either order, and nowhere else (R14). -/
theorem segAt_applyTriple_classes {t : Nat × Nat × Nat} (good : tripleGood t = true) (m : List (Nat × SegCode)) {c d : Nat}
    (hd : d ≤ 15) :
    segAt (applyTriple m t) (segKey c d)
      = if (c = t.1 ∧ d = t.2.1) ∨ (c = t.2.1 ∧ d = t.1) then tripleCode t else segAt m (segKey c d) := by
  unfold tripleGood at good
  simp only [Bool.and_eq_true, decide_eq_true_eq] at good
  rw [segAt_applyTriple]
  exact if_congr (or_congr (segKey_inj hd good.1.2) (segKey_inj hd good.1.1.1.2)) rfl rfl

/-- A triple keeps a matrix symmetric. -/
theorem applyTriple_symmetric {t : Nat × Nat × Nat} (good : tripleGood t = true) {m : List (Nat × SegCode)} {c d : Nat}
    (hc : c ≤ 15) (hd : d ≤ 15) (h : segAt m (segKey c d) = segAt m (segKey d c)) :
    segAt (applyTriple m t) (segKey c d) = segAt (applyTriple m t) (segKey d c) := by
  rw [segAt_applyTriple_classes good m hd, segAt_applyTriple_classes good m hc, h]
  exact if_congr (by tauto) rfl rfl

theorem foldl_applyTriple_symmetric {ts : List (Nat × Nat × Nat)} {c d : Nat} (hc : c ≤ 15) (hd : d ≤ 15) :
    ∀ m : List (Nat × SegCode), (∀ t ∈ ts, tripleGood t = true) → segAt m (segKey c d) = segAt m (segKey d c) →
      segAt (ts.foldl applyTriple m) (segKey c d) = segAt (ts.foldl applyTriple m) (segKey d c) := by
  induction ts with
  | nil => exact fun _ _ h => h
  | cons t ts ih =>
    exact fun m good h => ih _ (fun x hx => good x (List.mem_cons_of_mem _ hx))
      (applyTriple_symmetric (good t List.mem_cons_self) hc hd h)

/-- Keys strictly rising and no NONE listed. -/
def SegCanonical (m : List (Nat × SegCode)) : Prop := Table.rising m = true ∧ ∀ e ∈ m, e.2 ≠ .none

theorem SegCanonical.segPut {m : List (Nat × SegCode)} (h : SegCanonical m) (k : Nat) (code : SegCode) :
    SegCanonical (segPut k code m) := by
  unfold Machine.segPut
  split
  · exact ⟨Table.rising_drop h.1, fun e he => h.2 e (List.mem_filter.1 he).1⟩
  · rename_i some
    exact ⟨Table.rising_put h.1, fun e he => (Table.mem_put he).elim (fun q => q ▸ some) (h.2 e)⟩

theorem SegCanonical.foldl {ts : List (Nat × Nat × Nat)} :
    ∀ {m : List (Nat × SegCode)}, SegCanonical m → SegCanonical (ts.foldl applyTriple m) := by
  induction ts with
  | nil => exact id
  | cons t ts ih => exact fun h => ih ((h.segPut _ _).segPut _ _)

/-! ## Writes of the profile (chapter 1) -/

@[simp] theorem taken_st (s : State) : (taken s).st = s := rfl

theorem keeps_actWriteSegregation {V : Prop} (ts : List (Nat × Nat × Nat)) (s : State) :
    Keeps V s (actWriteSegregation ts s).st := by
  unfold actWriteSegregation
  split
  · exact .refl s
  · split
    · exact .refl s
    · rename_i good
      have triples : ∀ t ∈ ts, tripleGood t = true := by
        simp only [Bool.not_eq_true, Bool.or_eq_false_iff, Bool.not_eq_false'] at good
        exact List.all_eq_true.1 good.2
      rw [taken_st]
      exact
        { symmetric := fun h c d c1 c15 d1 d15 => foldl_applyTriple_symmetric c15 d15 _ triples (h c d c1 c15 d1 d15)
          tables := fun c =>
            { c with
              segregation := (SegCanonical.foldl ⟨c.segregation, c.codes⟩).1
              codes := (SegCanonical.foldl ⟨c.segregation, c.codes⟩).2 }
          sizes := fun _ w => { w with }
          map := fun _ => SameMap.follows {} }

theorem keeps_actWriteRange (base count : Nat) (s : State) : Keeps (VoyageConsistent s) s (actWriteRange base count s).st := by
  unfold actWriteRange
  split
  · exact .refl s
  · rename_i setup
    split
    · exact .refl s
    · rename_i range
      have empty : ∀ x ∈ List.replicate count emptySlot, x.occupants = [] := fun x hx => by
        rw [List.eq_of_mem_replicate hx]; rfl
      rw [taken_st]
      exact
        { symmetric := fun h => h
          tables := fun c => { c with occupants := fun x hx => by rw [empty x hx]; exact List.forall_mem_nil _ }
          sizes := fun _ w => { w with lanes := by dsimp only; rw [List.length_replicate]; omega }
          map := fun v _ =>
            have b := v.blank (by simpa using setup)
            have blank : Blank { s with rangeBase := base, lanes := List.replicate count emptySlot } :=
              ⟨b.records, empty, b.departures, b.offers, b.reservations, b.trials⟩
            blank.follows s }

theorem keeps_actWriteGaps (g : PerKind (Option Nat)) (s : State) : Keeps (VoyageConsistent s) s (actWriteGaps g s).st := by
  unfold actWriteGaps
  split
  · exact .refl s
  · rename_i setup
    split
    · exact .refl s
    · rw [taken_st]
      exact
        { symmetric := fun h => h
          tables := fun c => { c with }
          sizes := fun _ w => { w with }
          map := fun v _ =>
            have b := v.blank (by simpa using setup)
            have blank : Blank { s with gaps := updatedGaps s.gaps g } :=
              ⟨b.records, b.lanes, b.departures, b.offers, b.reservations, b.trials⟩
            blank.follows s }

theorem keeps_actWriteLane {V : Prop} (l : Lane) (f : LaneFields) (s : State) : Keeps V s (actWriteLane l f s).st := by
  unfold actWriteLane
  split
  · exact .refl s
  · split
    · unfold defineLane
      split
      · exact .refl s
      · split
        · exact .refl s
        · split
          · exact keeps_setEntry s l _
          · exact .refl s
    · unfold updateLane
      split
      · exact .refl s
      · dsimp only; split
        · exact (keeps_setEntry s l _).trans (keeps_setSuspect _ l _)
        · exact .refl s

theorem keeps_actUndefineLane {V : Prop} (l : Lane) (s : State) : Keeps V s (actUndefineLane l s).st := by
  unfold actUndefineLane
  split
  · exact .refl s
  · split
    · exact .refl s
    · exact keeps_setEntry s l _

/-- Putting at a key adds at most one entry. -/
theorem Table.length_put {α : Type} (key : Nat) (a : α) (t : List (Nat × α)) :
    (Table.put key a t).length ≤ t.length + 1 := by
  induction t with
  | nil => exact Nat.le_refl _
  | cons x t ih =>
    simp only [Table.put]
    split
    · exact Nat.le_refl _
    · split
      · exact Nat.le_succ _
      · exact Nat.succ_le_succ ih

/-- Putting at a key that is listed adds no entry. -/
theorem Table.length_put_of_find {α : Type} {key : Nat} {a : α} {t : List (Nat × α)} :
    ∀ {lo : Nat}, Table.risingFrom lo t = true → Table.find t key ≠ none → (Table.put key a t).length = t.length := by
  induction t with
  | nil => exact fun _ h => absurd rfl h
  | cons x t ih =>
    intro lo r h
    simp only [Table.risingFrom, Bool.and_eq_true, decide_eq_true_eq] at r
    simp only [Table.put, Table.find] at h ⊢
    split
    · rename_i lt
      rw [if_neg (by omega)] at h
      exact absurd (Table.find_none_of_lt r.2 (by omega)) h
    · split
      · rfl
      · rename_i ne
        rw [if_neg (Ne.symm ne)] at h
        exact congrArg Nat.succ (ih r.2 h)

theorem keeps_setDeck {V : Prop} {s : State} {deck limit : Nat}
    (h : Table.find s.decks deck ≠ none ∨ s.decks.length < Config.deckCapacity) : Keeps V s (setDeck s deck limit) where
  symmetric h := h
  tables c := { c with decks := Table.rising_put c.decks }
  sizes c w := { w with
    decks := h.elim (fun f => (Table.length_put_of_find c.decks f).trans_le w.decks)
      fun lt => (Table.length_put ..).trans lt }
  map _ := by unfold setDeck; exact SameMap.follows {}

theorem keeps_actWriteDeck {V : Prop} (deck limit : Nat) (s : State) : Keeps V s (actWriteDeck deck limit s).st := by
  unfold actWriteDeck
  split
  · exact .refl s
  · split
    · rename_i f
      split
      · exact .refl s
      · exact keeps_setDeck (.inl (by rw [f]; exact nofun))
    · split
      · exact .refl s
      · split
        · exact .refl s
        · split
          · exact .refl s
          · rename_i few; exact keeps_setDeck (.inr (Nat.lt_of_not_le few))

theorem keeps_actRemoveDeck {V : Prop} (deck : Nat) (s : State) : Keeps V s (actRemoveDeck deck s).st := by
  unfold actRemoveDeck
  split
  · exact .refl s
  · split
    · exact .refl s
    · split
      · exact .refl s
      · rw [taken_st]
        exact
          { symmetric := fun h => h
            tables := fun c => { c with decks := Table.rising_drop c.decks }
            sizes := fun _ w => { w with decks := (List.length_filter_le ..).trans w.decks }
            map := fun _ => SameMap.follows {} }

theorem keeps_actWriteSection {V : Prop} (id : Nat) (hoist covered : List Lane) (reduced : Nat) (travel : Option Nat)
    (s : State) : Keeps V s (actWriteSection id hoist covered reduced travel s).st := by
  unfold actWriteSection
  split
  · exact .refl s
  · rename_i low
    split
    · exact .refl s
    · split
      · exact .refl s
      · exact keeps_setSection _ fun _ => Nat.le_of_not_lt low

theorem keeps_actRemoveSection {V : Prop} (id : Nat) (s : State) : Keeps V s (actRemoveSection id s).st := by
  unfold actRemoveSection
  split
  · exact .refl s
  · split
    · exact .refl s
    · rw [taken_st]
      exact
        { symmetric := fun h => h
          tables := fun c =>
            { c with sections := Table.rising_drop c.sections, ids := fun e he => c.ids e (List.mem_filter.1 he).1 }
          sizes := fun _ w => { w with }
          map := fun _ => SameMap.follows {} }

theorem keeps_actWriteLimits {V : Prop} (hLim tMin tMax : Option Int) (s : State) :
    Keeps V s (actWriteLimits hLim tMin tMax s).st := by
  have written (n : Limits) : Keeps V s { s with limits := n } := Untouched.keeps {}
  unfold actWriteLimits
  dsimp only
  split
  · exact .refl s
  · unfold taken answer
    dsimp only
    split
    · exact written _
    · exact (written _).trans (keeps_testStability _)

theorem keeps_actWritePolicy {V : Prop} (f : PolicyFields) (s : State) : Keeps V s (actWritePolicy f s).st := by
  have written (n : Policy) : Keeps V s { s with policy := n } := Untouched.keeps {}
  unfold actWritePolicy
  split
  · exact .refl s
  · exact written _

theorem keeps_actWriteDefaultUnit {V : Prop} (d : Desc) (s : State) : Keeps V s (actWriteDefaultUnit d s).st := by
  have written (u : UnitDesc) : Keeps V s { s with defaultUnit := u } := Untouched.keeps {}
  unfold actWriteDefaultUnit
  split
  · exact .refl s
  · split
    · exact .refl s
    · split
      · exact .refl s
      · exact written _

/-! ## The log and the notices (chapter 10) -/

theorem keeps_actDrainLog {V : Prop} (count : Nat) (s : State) : Keeps V s (actDrainLog count s).st := by
  unfold actDrainLog
  split
  · exact .refl s
  · refine .of_sameStow (t := { s with log := s.log.drop count }) {} fun w => SameStow.sizes {} w w.holds w.rxFwd w.rxRet ?_
    exact (List.drop_sublist count s.log).length_le.trans w.log

theorem keeps_actAckNotices {V : Prop} (flags : NoticeSet) (s : State) : Keeps V s (actAckNotices flags s).st :=
  Untouched.keeps (t := { s with notices := noticeMinus s.notices flags, armed := true }) {}

theorem keeps_actSetEnables {V : Prop} (enables : NoticeSet) (s : State) : Keeps V s (actSetEnables enables s).st :=
  Untouched.keeps (t := { s with enables := enables }) {}

end Sys2Proof.Machine

namespace Sys2Proof.Machine

/-! ## Taking a frame -/

theorem VoyageConsistent.setRxQueue {s : State} (v : VoyageConsistent s) (q : List Frame) (p : InPort) :
    VoyageConsistent (setRxQueue s q p) := by
  cases p <;> exact { v with }

theorem VoyageConsistent.arrive {s : State} (v : VoyageConsistent s) (p : InPort) (f : Frame) :
    VoyageConsistent (arrive s p f) := by
  unfold Machine.arrive
  split
  · exact v
  · split
    · exact v.setRxQueue _ p
    · exact { v with }

/-- A command that takes a frame keeps what its action keeps. -/
theorem keeps_takeFrame {p : InPort} {f : Frame} {mine : State → Bool} {act : State → State}
    (k : ∀ u, Keeps (VoyageConsistent u) u (act u)) (s : State) :
    Keeps (VoyageConsistent s) s (takeFrame p f mine act s) := by
  unfold takeFrame
  split
  · exact .refl s
  · dsimp only
    refine Keeps.trans ?_ (keeps_endEvent s _)
    have line : ∃ w, (if (rxQueue s p).head? = some f then s else arrive s p f) = w
        ∧ Keeps (VoyageConsistent s) s w ∧ (VoyageConsistent s → VoyageConsistent w) := by
      refine ⟨_, rfl, ?_⟩
      split
      · exact ⟨.refl s, id⟩
      · exact ⟨keeps_arrive s p f, fun v => v.arrive p f⟩
    obtain ⟨w, e, kw, vw⟩ := line
    rw [e]
    split
    · have taken : Keeps (VoyageConsistent s) w (setRxQueue w (rxQueue w p).tail p) :=
        keeps_setRxQueue w _ p fun le => (List.tail_sublist _).length_le.trans le
      exact (kw.trans taken).trans ((k _).mono fun v _ => (vw v).setRxQueue _ p)
    · exact kw

theorem keeps_takeOrder {f : Frame} {act : State → State} (k : ∀ {V : Prop} u, Keeps V u (act u)) (s : State) :
    Keeps (VoyageConsistent s) s (takeOrder f act s) :=
  keeps_takeFrame (fun u => (keeps_passDown u f).trans (k _)) s

theorem keeps_follow {V : Prop} (a : After) (s : State) : Keeps V s (follow a s) := by
  cases a with
  | nothing => exact .refl s
  | freed => exact keeps_capacityFreed s
  | attention => exact keeps_emitAttention s
  | frames fs => exact keeps_emitAllRet fs s

theorem keeps_finish {V : Prop} (q : ReqHead) (a : Answer) : Keeps V a.st (finish q a) :=
  (keeps_emitRet a.st _).trans (keeps_follow _ _)

theorem keeps_clearPending {V : Prop} (a : Answer) : Keeps V a.st (clearPending a).st :=
  Untouched.keeps (t := { a.st with pendingClear := false }) {}

/-- An addressed request keeps what its action keeps. -/
theorem keeps_serve {q : ReqHead} {body : ReqBody} {act : State → Answer} (k : ∀ u, Keeps (VoyageConsistent u) u (act u).st)
    (s : State) : Keeps (VoyageConsistent s) s (serve q body act s) :=
  keeps_takeFrame (fun u => ((k u).trans (keeps_clearPending _)).trans (keeps_finish q _)) s

/-! ## Requests that change nothing the conditions read -/

theorem keeps_passOn {V : Prop} (p : InPort) (f : Frame) (s : State) : Keeps V s (passOn p f s) := by
  cases p with
  | fwd => exact keeps_passDown s f
  | ret => exact keeps_passUp s f

theorem keeps_actReadProfile {V : Prop} (item : ProfileItem) (s : State) : Keeps V s (actReadProfile item s).st := by
  unfold actReadProfile
  split
  case h_2 => split <;> exact .refl s
  case h_3 =>
    split
    · exact .refl s
    · split <;> exact .refl s
  case h_4 => split <;> exact .refl s
  case h_5 => split <;> exact .refl s
  all_goals exact .refl s

theorem keeps_actReadUnit {V : Prop} (key : UnitKey) (s : State) : Keeps V s (actReadUnit key s).st := by
  unfold actReadUnit
  split
  · split <;> exact .refl s
  · unfold readMark
    split <;> exact .refl s

theorem keeps_actReadLane {V : Prop} (l : Lane) (start : Nat) (s : State) : Keeps V s (actReadLane l start s).st := by
  unfold actReadLane
  split
  · exact .refl s
  · split
    · exact .refl s
    · split <;> exact .refl s

theorem keeps_actEvaluate {V : Prop} (d : Desc) (lane : Option Lane) (s : State) : Keeps V s (actEvaluate d lane s).st := by
  unfold actEvaluate
  split
  · split
    · exact .refl s
    · unfold evaluateAll
      dsimp only; split <;> exact .refl s
  · split
    · exact .refl s
    · split <;> exact .refl s

theorem keeps_actReadHoldList {V : Prop} (start : Nat) (s : State) : Keeps V s (actReadHoldList start s).st := by
  unfold actReadHoldList
  split
  · exact .refl s
  · split <;> exact .refl s

/-! ## Every command -/

theorem keeps_next {V : Prop} {s x t : State} (k : Keeps V s x)
    (h : (.next x : Host.Outcome State Fault Refusal) = .next t) : Keeps V s t := by
  cases h; exact k

theorem keeps_frameArrival {V : Prop} {p : InPort} {wire : List Byte} {f : Frame} {s t : State}
    (h : execFrameArrival p wire f s = .next t) : Keeps V s t := by
  unfold execFrameArrival at h
  split at h
  · exact keeps_next (.refl s) h
  · split at h
    · exact keeps_next (.refl s) h
    · exact keeps_next ((keeps_raiseNotice s _).trans (keeps_endEvent s _)) h
    · exact keeps_next ((keeps_arrive s p f).trans (keeps_endEvent s _)) h

theorem keeps_arbiterSend {V : Prop} {o : OutPort} {heldOff : Bool} {s t : State}
    (h : execArbiterSend o heldOff s = .next t) : Keeps V s t := by
  unfold execArbiterSend at h
  split at h
  · exact keeps_next (.refl s) h
  · split at h
    · exact keeps_next (keeps_sendFwd s) h
    · exact keeps_next (keeps_sendRet s) h

theorem keeps_travelTimerExpiry {V : Prop} {id : Nat} {s t : State} (h : execTravelTimerExpiry id s = .next t) :
    Keeps V s t := by
  unfold execTravelTimerExpiry at h
  split at h
  · exact keeps_next (.refl s) h
  · rename_i f
    refine keeps_next ?_ h
    split
    · exact (keeps_expireTravel fun c => c.id_le f).trans (keeps_endEvent s _)
    · exact .refl s

theorem keeps_offerDeadline {V : Prop} {h : Handle} {s t : State} (e : execOfferDeadline h s = .next t) : Keeps V s t := by
  refine keeps_next ?_ e
  split
  · rename_i expired
    unfold offerExpired at expired
    simp only [Bool.and_eq_true, beq_iff_eq] at expired
    exact keeps_withdrawOffer expired.2.1.2
  · exact .refl s

theorem keeps_reservationLapse {V : Prop} {h : Handle} {s t : State} (e : execReservationLapse h s = .next t) :
    Keeps V s t := by
  refine keeps_next ?_ e
  split
  · rename_i next
    rw [Bool.and_eq_true, beq_iff_eq] at next
    exact (keeps_lapse next.2).trans (keeps_endEvent s _)
  · exact .refl s

theorem keeps_reportTimerExpiry {V : Prop} {s t : State} (h : execReportTimerExpiry s = .next t) : Keeps V s t := by
  refine keeps_next ?_ h
  split
  · exact (keeps_emitRet s _).trans (keeps_endReport _)
  · exact .refl s

/-- Every command keeps every condition of the map, the lists and the tables. -/
theorem keeps_exec (c : Instr) {s t : State} (h : exec c s = .next t) : Keeps (VoyageConsistent s) s t := by
  cases c with
  | powerOn r p => exact keeps_next (keeps_powerOn s _ p _) h
  | resetAssert => exact keeps_next (x := { s with inReset := true, drivenFwd := none, drivenRet := none }) (Untouched.keeps {}) h
  | stowClockTick =>
    refine keeps_next ?_ (show execStowClockTick s = .next t from h)
    split
    · exact .refl s
    · exact keeps_tickState s
  | offerDeadline g => exact keeps_offerDeadline h
  | reservationLapse g => exact keeps_reservationLapse h
  | travelTimerExpiry id => exact keeps_travelTimerExpiry h
  | reportTimerExpiry => exact keeps_reportTimerExpiry h
  | frameArrival p wire f => exact keeps_frameArrival h
  | arbiterSend o held => exact keeps_arbiterSend h
  | passThrough p f => exact keeps_next (keeps_takeFrame (fun u => keeps_passOn p f u) s) h
  | checkIn c => exact keeps_next (keeps_takeFrame (fun u => keeps_actCheckIn c u) s) h
  | confirm c => exact keeps_next (keeps_takeFrame (fun u => keeps_actConfirm c u) s) h
  | freed pos => exact keeps_next (keeps_takeFrame (fun u => keeps_actFreed pos u) s) h
  | tallyOn m l d placed => exact keeps_next (keeps_takeFrame (fun u => keeps_actTallyOn m l d placed u) s) h
  | tallyOff m l removed => exact keeps_next (keeps_takeFrame (fun u => keeps_actTallyOff m l removed u) s) h
  | hoistStatusDown target id => exact keeps_next (keeps_takeFrame (fun u => keeps_actHoistStatus target id true u) s) h
  | hoistStatusUp target id => exact keeps_next (keeps_takeFrame (fun u => keeps_actHoistStatus target id false u) s) h
  | trailer n count => exact keeps_next (keeps_takeFrame (fun u => keeps_actTrailer n count u) s) h
  | reportToken k => exact keeps_next (keeps_takeFrame (fun u => keeps_actReportToken k u) s) h
  | laneMask lanes action => exact keeps_next (keeps_takeOrder (fun u => keeps_actLaneMask lanes action u) s) h
  | abort => exact keeps_next (keeps_takeOrder (fun u => keeps_actAbort u) s) h
  | sealOrder => exact keeps_next (keeps_takeOrder (fun u => keeps_actSeal u) s) h
  | unsealOrder advance => exact keeps_next (keeps_takeOrder (fun u => keeps_actUnseal advance u) s) h
  | cancel m => exact keeps_next (keeps_takeOrder (fun u => keeps_actCancel m u) s) h
  | clock value =>
    exact keeps_next (keeps_takeOrder (fun u => Untouched.keeps (t := { u with stowClock := value }) {}) s) h
  | identify => exact keeps_next (keeps_takeOrder (fun u => keeps_emitRet u (identFrame u)) s) h
  | requestPassedOn q body => exact keeps_next (keeps_takeFrame (fun u => keeps_passDown u (.request q body)) s) h
  | noEngineReply q body => exact keeps_next (keeps_takeFrame (fun u => keeps_emitRet u _) s) h
  | unknownRequest q kind body => exact keeps_next (keeps_serve (fun u => .refl u) s) h
  | writeRange q base count => exact keeps_next (keeps_serve (keeps_actWriteRange base count) s) h
  | writeLane q l f => exact keeps_next (keeps_serve (fun u => keeps_actWriteLane l f u) s) h
  | writeLaneUndefine q l => exact keeps_next (keeps_serve (fun u => keeps_actUndefineLane l u) s) h
  | writeDeck q deck limit => exact keeps_next (keeps_serve (fun u => keeps_actWriteDeck deck limit u) s) h
  | writeDeckRemove q deck => exact keeps_next (keeps_serve (fun u => keeps_actRemoveDeck deck u) s) h
  | writeSection q id hoist covered reduced travel =>
    exact keeps_next (keeps_serve (fun u => keeps_actWriteSection id hoist covered reduced travel u) s) h
  | writeSectionRemove q id => exact keeps_next (keeps_serve (fun u => keeps_actRemoveSection id u) s) h
  | writeSegregation q ts => exact keeps_next (keeps_serve (fun u => keeps_actWriteSegregation ts u) s) h
  | writeLimits q hLim tMin tMax => exact keeps_next (keeps_serve (fun u => keeps_actWriteLimits hLim tMin tMax u) s) h
  | writePolicy q f => exact keeps_next (keeps_serve (fun u => keeps_actWritePolicy f u) s) h
  | writeGaps q g => exact keeps_next (keeps_serve (keeps_actWriteGaps g) s) h
  | writeDefaultUnit q d => exact keeps_next (keeps_serve (fun u => keeps_actWriteDefaultUnit d u) s) h
  | readProfile q item => exact keeps_next (keeps_serve (fun u => keeps_actReadProfile item u) s) h
  | readUnit q key => exact keeps_next (keeps_serve (fun u => keeps_actReadUnit key u) s) h
  | readLane q l start => exact keeps_next (keeps_serve (fun u => keeps_actReadLane l start u) s) h
  | readStowSummary q => exact keeps_next (keeps_serve (fun u => .refl u) s) h
  | evaluate q d l => exact keeps_next (keeps_serve (fun u => keeps_actEvaluate d l u) s) h
  | trial q d => exact keeps_next (keeps_serve (fun u => keeps_actTrial d u) s) h
  | undo q => exact keeps_next (keeps_serve (fun u => keeps_actUndo u) s) h
  | commitTrials q => exact keeps_next (keeps_serve (fun u => keeps_actCommitTrials u) s) h
  | readHoldList q start => exact keeps_next (keeps_serve (fun u => keeps_actReadHoldList start u) s) h
  | deploy q id => exact keeps_next (keeps_serve (fun u => keeps_actDeploy id u) s) h
  | stow q id => exact keeps_next (keeps_serve (fun u => keeps_actStow id u) s) h
  | openVoyage q => exact keeps_next (keeps_serve (fun u => keeps_actOpenVoyage u) s) h
  | clearVoyage q =>
    exact keeps_next (keeps_takeFrame (fun u => (keeps_actClearVoyage u).trans (keeps_finish q _)) s) h
  | ballast q heel trim => exact keeps_next (keeps_serve (fun u => keeps_actBallast heel trim u) s) h
  | readVoyage q => exact keeps_next (keeps_serve (fun u => .refl u) s) h
  | report q cf => exact keeps_next (keeps_serve (fun u => keeps_actReport cf u) s) h
  | drainLog q count => exact keeps_next (keeps_serve (fun u => keeps_actDrainLog count u) s) h
  | ackNotices q flags => exact keeps_next (keeps_serve (fun u => keeps_actAckNotices flags u) s) h
  | setEnables q enables => exact keeps_next (keeps_serve (fun u => keeps_actSetEnables enables u) s) h

/-- Every step keeps every condition of the map, the lists and the tables. -/
theorem keeps_step {s t : State} (h : step s = .next t) : Keeps (VoyageConsistent s) s t := by
  unfold step at h
  split at h
  · exact keeps_next (.refl s) h
  · rename_i c rest _
    have popped : Keeps (VoyageConsistent s) s { s with pending := rest } := Untouched.keeps {}
    exact popped.trans ((keeps_exec c h).mono fun v _ => { v with })

/-- What a step on a sound state in agreement with its voyage follows. -/
theorem step_follows {s t : State} (m : MapAgrees s) (w : WithinRooms s) (c : TablesCanonical s) (v : VoyageConsistent s)
    (h : step s = .next t) : Follows s t := (keeps_step h).map v ⟨c, m, w⟩

/-- Settles O56: `keeps_step`, a chain of the operations that each command runs. -/
theorem stepKeepsSizes : Obligations.StepKeepsSizes := fun _ _ w c h => (keeps_step h).sizes c w

/-- Settles O58: `keeps_step`, whose map clause gives the five conditions on the Stow Map and the lists. -/
theorem stepKeepsTables : Obligations.StepKeepsTables := by
  refine ⟨fun s t c h => (keeps_step h).tables c, fun s t m w c v h => ?_, fun s t w m c v h => ?_,
    fun s t p o m w c v h => ?_, fun s t o m w c v h => ?_, fun s t y h => (keeps_step h).symmetric y⟩
  · exact (step_follows m w c v h).agrees
  · exact (step_follows m w c v h).rooms
  · exact ⟨(step_follows m w c v h).packed p, (step_follows m w c v h).order o⟩
  · exact (step_follows m w c v h).holder o

end Sys2Proof.Machine

namespace Sys2Proof.Machine

/-! # The vessel profile (O40 to O45, O55) -/

/-! ## The reset state -/

theorem armedQuiet_reset : ArmedQuiet State.reset := fun _ => by decide

theorem voyageConsistent_reset : VoyageConsistent State.reset where
  offers _ := rfl
  reservations _ := rfl
  trials _ := rfl
  holds _ := rfl
  holder _ := rfl
  pendingClear _ := rfl
  records _ := rfl
  departures _ := rfl
  lanes _ := List.forall_mem_nil _

/-- Settles O55: the reset state is without cargo, so its map and lists agree and lie within their rooms. -/
theorem resetMeetsTheConditions : Obligations.ResetMeetsTheConditions := by
  have blank : Blank State.reset := blank_powerOn .sole 0 []
  exact ⟨sizes_powerOn .sole 0 [], armedQuiet_reset, tables_powerOn .sole 0 [], voyageConsistent_reset, blank.agrees,
    blank.rooms, blank.packed, blank.order, blank.holder, symmetric_powerOn .sole 0 []⟩

/-! ## Answers of the profile requests

A request is answered on the state with its frame taken, which the profile does not read; so each answer's tests are those of
the state the request finds. -/

theorem inSetup_took (s : State) : inSetup (took .fwd s) = inSetup s := rfl

theorem inSetup_iff {s : State} : inSetup s = true ↔ s.voyage = .setup := beq_iff_eq

theorem inSetup_false_iff {s : State} : inSetup s = false ↔ s.voyage ≠ .setup := beq_eq_false_iff_ne

/-- A request refused. -/
theorem serve_refuses {q : ReqHead} {body : ReqBody} {act : State → Answer} {s : State} (h : Addressed q body s)
    {code : ReplyCode} (ha : act (took .fwd s) = refuse (took .fwd s) code) :
    (.next (serve q body act s) : Host.Outcome State Fault Refusal) = .next (replied q code .empty s) :=
  congrArg _ (serve_replies h ha)

/-- A request taken, with a body, that changes nothing. -/
theorem serve_answers {q : ReqHead} {body : ReqBody} {act : State → Answer} {s : State} (h : Addressed q body s)
    {b : ReplyBody} (ha : act (took .fwd s) = answer (took .fwd s) b) :
    (.next (serve q body act s) : Host.Outcome State Fault Refusal) = .next (replied q .ok b s) :=
  congrArg _ (serve_replies h ha)

/-- A request taken, with its effect. -/
theorem serve_takes {q : ReqHead} {body : ReqBody} {act : State → Answer} {s t : State} (h : Addressed q body s)
    {b : ReplyBody} (ha : act (took .fwd s) = answer t b) (hn : t.notices = s.notices) :
    (.next (serve q body act s) : Host.Outcome State Fault Refusal)
      = .next { t with pendingClear := false, origRet := t.origRet ++ [.reply q.tag t.position .ok b] } :=
  congrArg _ (serve_next h ha hn)

/-! ### WRITE RANGE, WRITE POLICY, WRITE GAPS, WRITE DEFAULT UNIT -/

theorem natIn_iff {lo hi : Nat} {a : Option Nat} : natIn lo hi a = true ↔ ∀ v, a = some v → lo ≤ v ∧ v ≤ hi := by
  cases a <;> simp [natIn]

theorem intIn_iff {lo hi : Int} {a : Option Int} : intIn lo hi a = true ↔ ∀ v, a = some v → lo ≤ v ∧ v ≤ hi := by
  cases a <;> simp [intIn]

/-- A range from 0 up refuses what lies above it alone. -/
theorem natIn_zero_false {hi : Nat} {a : Option Nat} : natIn 0 hi a = false ↔ hi < a.getD 0 := by
  cases a <;> simp [natIn]

theorem writeRange_answers {q : ReqHead} {base count : Nat} {s : State} (h : Addressed q (.writeRange base count) s) :
    exec (.writeRange q base count) s = .next
      (if s.voyage ≠ .setup then replied q .wrongState .empty s
      else if 255 < base ∨ count < 1 ∨ 64 < count ∨ 255 < base + count - 1 then replied q .badField .empty s
      else { replied q .ok .empty s with rangeBase := base, lanes := List.replicate count emptySlot }) := by
  change Host.Outcome.next (serve q _ (actWriteRange base count) s) = _
  split
  · rename_i shut
    exact serve_refuses h (by simp [actWriteRange, inSetup_took, inSetup_false_iff.2 shut])
  · rename_i setup
    have setup : inSetup s = true := inSetup_iff.2 (not_not.1 setup)
    split
    · rename_i bad
      refine serve_refuses h ?_
      unfold actWriteRange
      rw [inSetup_took, setup]
      exact if_pos bad
    · rename_i good
      have taken : actWriteRange base count (took .fwd s)
          = answer { took .fwd s with rangeBase := base, lanes := List.replicate count emptySlot } .empty := by
        unfold actWriteRange
        rw [inSetup_took, setup]
        exact if_neg good
      exact serve_takes h taken rfl

theorem written_eq {α : Type} (a : Option α) (b : α) : written a b = a.getD b := rfl

theorem updatedPolicy_eq (p : Policy) (f : PolicyFields) : updatedPolicy p f =
    { wH := f.wH.getD p.wH, wF := f.wF.getD p.wF, wO := f.wO.getD p.wO
      pEmpty := (f.pEmpty.map BitVec.toNat).getD p.pEmpty
      offerTimeout := (f.offerTimeout.map fun b => max 5 b.toNat).getD p.offerTimeout
      resTimeout := (f.resTimeout.map fun b => max 30 (min 3600 b.toNat)).getD p.resTimeout } := by
  have byte : ∀ b : BitVec 8, clampNat 5 255 b.toNat = max 5 b.toNat := fun b => by
    unfold clampNat; have := b.isLt; omega
  unfold updatedPolicy
  simp only [written_eq]
  simp only [byte]
  rfl

theorem writePolicy_answers {q : ReqHead} {f : PolicyFields} {s : State} (h : Addressed q (.writePolicy f) s) :
    exec (.writePolicy q f) s = .next
      (if 7 < f.wH.getD 0 ∨ 7 < f.wF.getD 0 ∨ 7 < f.wO.getD 0 then replied q .badField .empty s
      else
        let p := updatedPolicy s.policy f
        { replied q .ok (.timeouts p.offerTimeout p.resTimeout) s with policy := p }) := by
  change Host.Outcome.next (serve q _ (actWritePolicy f) s) = _
  have test : (!natIn 0 7 f.wH || !natIn 0 7 f.wF || !natIn 0 7 f.wO) = true
      ↔ 7 < f.wH.getD 0 ∨ 7 < f.wF.getD 0 ∨ 7 < f.wO.getD 0 := by
    simp only [Bool.or_eq_true, Bool.not_eq_true', natIn_zero_false, or_assoc]
  split
  · rename_i bad
    exact serve_refuses h (if_pos (test.2 bad))
  · rename_i good
    have taken : actWritePolicy f (took .fwd s) = answer { took .fwd s with policy := updatedPolicy s.policy f }
        (.timeouts (updatedPolicy s.policy f).offerTimeout (updatedPolicy s.policy f).resTimeout) :=
      if_neg fun x => good (test.1 x)
    exact serve_takes h taken rfl

theorem writeGaps_answers {q : ReqHead} {g : PerKind (Option Nat)} {s : State} (h : Addressed q (.writeGaps g) s) :
    exec (.writeGaps q g) s = .next
      (if s.voyage ≠ .setup then replied q .wrongState .empty s
      else if 30 < g.car.getD 0 ∨ 30 < g.van.getD 0 ∨ 30 < g.truck.getD 0 ∨ 30 < g.artic.getD 0 ∨ 30 < g.trailer.getD 0
          ∨ 30 < g.project.getD 0 then replied q .badField .empty s
      else { replied q .ok .empty s with gaps := updatedGaps s.gaps g }) := by
  change Host.Outcome.next (serve q _ (actWriteGaps g) s) = _
  have test : gapsIn g = false ↔ 30 < g.car.getD 0 ∨ 30 < g.van.getD 0 ∨ 30 < g.truck.getD 0 ∨ 30 < g.artic.getD 0
      ∨ 30 < g.trailer.getD 0 ∨ 30 < g.project.getD 0 := by
    simp only [gapsIn, Bool.and_eq_false_iff, natIn_zero_false, or_assoc]
  split
  · rename_i shut
    exact serve_refuses h (by simp [actWriteGaps, inSetup_took, inSetup_false_iff.2 shut])
  · rename_i setup
    have setup : inSetup s = true := inSetup_iff.2 (not_not.1 setup)
    split
    · rename_i bad
      exact serve_refuses h (by simp [actWriteGaps, inSetup_took, setup, test.2 bad])
    · rename_i good
      have within : gapsIn g = true := by simpa using fun x => good (test.1 x)
      have taken : actWriteGaps g (took .fwd s) = answer { took .fwd s with gaps := updatedGaps s.gaps g } .empty := by
        unfold actWriteGaps
        rw [inSetup_took, setup, within]
        rfl
      exact serve_takes h taken rfl

/-- The unit that EVALUATE, TRIAL and WRITE DEFAULT UNIT accept has its height as it is carried. -/
theorem descExactUnit_eq (d : Desc) : descExactUnit d =
    if descFaulty d = true ∨ 600 < descHeight d then none
    else (descKind d).map fun k =>
      { mark := descMark d, kind := k, length := descLength d, mass := descMass d, height := descHeight d
        rank := descRank d, hazard := descHazard d, reefer := descReefer d } := by
  unfold descExactUnit descTall descUnit
  by_cases tall : 600 < descHeight d
  · simp [tall]
  · by_cases faulty : descFaulty d = true
    · simp [faulty]
    · simp [tall, faulty, Nat.min_eq_left (Nat.le_of_not_lt tall)]

theorem writeDefaultUnit_answers {q : ReqHead} {d : Desc} {s : State} (h : Addressed q (.writeDefaultUnit d) s) :
    exec (.writeDefaultUnit q d) s = .next
      (if s.voyage ≠ .setup then replied q .wrongState .empty s
      else if descIsLong d = false ∨ descFaulty d = true ∨ 600 < descHeight d then replied q .badField .empty s
      else
        match descKind d with
        | none => replied q .badField .empty s
        | some k =>
          { replied q .ok .empty s with
            defaultUnit :=
              { mark := 0, kind := k, length := descLength d, mass := descMass d, height := descHeight d
                rank := descRank d, hazard := descHazard d, reefer := descReefer d } }) := by
  change Host.Outcome.next (serve q _ (actWriteDefaultUnit d) s) = _
  split
  · rename_i shut
    exact serve_refuses h (by simp [actWriteDefaultUnit, inSetup_took, inSetup_false_iff.2 shut])
  · rename_i setup
    have setup : inSetup s = true := inSetup_iff.2 (not_not.1 setup)
    split
    · rename_i bad
      refine serve_refuses h ?_
      unfold actWriteDefaultUnit
      rw [inSetup_took, setup, descExactUnit_eq]
      rcases bad with short | bad
      · simp [short]
      · simp [bad]
    · rename_i good
      rw [not_or] at good
      have long : descIsLong d = true := by simpa using good.1
      split
      · rename_i kind
        refine serve_refuses h ?_
        unfold actWriteDefaultUnit
        rw [inSetup_took, setup, descExactUnit_eq, if_neg good.2, long, kind]
        rfl
      · rename_i k kind
        have taken : actWriteDefaultUnit d (took .fwd s) = answer { took .fwd s with defaultUnit :=
            { mark := 0, kind := k, length := descLength d, mass := descMass d, height := descHeight d
              rank := descRank d, hazard := descHazard d, reefer := descReefer d } } .empty := by
          unfold actWriteDefaultUnit
          rw [inSetup_took, setup, descExactUnit_eq, if_neg good.2, long, kind]
          rfl
        exact serve_takes h taken rfl

/-- Settles O40, request by request. -/
theorem writeRangePolicyAndDefaults : Obligations.WriteRangePolicyAndDefaults := by
  refine ⟨fun q base count s h => writeRange_answers h, fun q f s h => ?_, fun q g d s => ⟨fun h => ?_, fun h => ?_⟩⟩
  · rw [writePolicy_answers h, updatedPolicy_eq]
    cases f.offerTimeout <;> cases f.resTimeout <;> rfl
  · exact writeGaps_answers h
  · exact writeDefaultUnit_answers h

end Sys2Proof.Machine

namespace Sys2Proof.Machine

/-! ### WRITE LANE -/

/-- Two changes of one slot are one. -/
theorem modifySlot_modifySlot (s : State) (l : Lane) (f g : LaneSlot → LaneSlot) :
    modifySlot (modifySlot s l f) l g = modifySlot s l fun x => g (f x) := by
  rw [modifySlot_only (modifySlot s l f), modifySlot_only s l fun x => g (f x)]
  have lanes : (modifySlot (modifySlot s l f) l g).lanes = (modifySlot s l fun x => g (f x)).lanes := by
    rw [modifySlot_lanes, modifySlot_lanes, modifySlot_lanes]
    have base : (modifySlot s l f).rangeBase = s.rangeBase := by rw [modifySlot_only]
    rw [base]
    split
    · exact List.modify_modify_eq f g _ _
    · rfl
  rw [lanes, modifySlot_only s l f]

/-- A slot written in the state with the frame taken. -/
theorem modifySlot_took (s : State) (l : Lane) (f : LaneSlot → LaneSlot) :
    modifySlot (took .fwd s) l f = { took .fwd s with lanes := (modifySlot s l f).lanes } := by
  rw [modifySlot_only, modifySlot_lanes, modifySlot_lanes]; rfl

theorem defineLane_answers {q : ReqHead} {l : Lane} {f : LaneFields} {s : State} (h : Addressed q (.writeLane l f) s)
    {x : LaneSlot} (slot : slotOf s l = some x) (undefined : x.entry = none) :
    exec (.writeLane q l f) s = .next
      (if s.voyage ≠ .setup then replied q .wrongState .empty s
      else
        match definedEntry f with
        | none => replied q .badField .empty s
        | some e =>
          if laneFieldsIn f = true ∧ neighboursGood l e = true then
            { replied q .ok .empty s with lanes := (modifySlot s l fun y => { y with entry := some e }).lanes }
          else replied q .badField .empty s) := by
  change Host.Outcome.next (serve q _ (actWriteLane l f) s) = _
  have act : actWriteLane l f (took .fwd s) = defineLane (took .fwd s) l f := by
    unfold actWriteLane
    rw [show slotOf (took .fwd s) l = some x from slot]
    dsimp only
    rw [undefined]
  split
  · rename_i shut
    exact serve_refuses h (by rw [act]; unfold defineLane; rw [inSetup_took, inSetup_false_iff.2 shut]; rfl)
  · rename_i setup
    have setup : inSetup s = true := inSetup_iff.2 (not_not.1 setup)
    split
    · rename_i missing
      exact serve_refuses h (by rw [act]; unfold defineLane; rw [inSetup_took, setup, missing]; rfl)
    · rename_i e whole
      split
      · rename_i good
        have taken : actWriteLane l f (took .fwd s)
            = answer { took .fwd s with lanes := (modifySlot s l fun y => { y with entry := some e }).lanes } .empty := by
          rw [act]; unfold defineLane
          rw [inSetup_took, setup, whole]
          dsimp only
          rw [Bool.and_eq_true_iff.2 good, ← modifySlot_took]
          rfl
        exact serve_takes h taken rfl
      · rename_i bad
        refine serve_refuses h ?_
        rw [act]; unfold defineLane
        rw [inSetup_took, setup, whole]
        dsimp only
        rw [Bool.eq_false_iff.2 fun x => bad (Bool.and_eq_true_iff.1 x)]
        rfl

theorem updateLane_answers {q : ReqHead} {l : Lane} {f : LaneFields} {s : State} (h : Addressed q (.writeLane l f) s)
    {x : LaneSlot} {e : LaneEntry} (slot : slotOf s l = some x) (defined : x.entry = some e) :
    exec (.writeLane q l f) s = .next
      (if s.voyage ≠ .setup ∧ carriesGeometry f = true then replied q .wrongState .empty s
      else if laneFieldsIn f = true ∧ neighboursGood l (updatedEntry e f) = true then
        let t :=
          { replied q .ok .empty s with
            lanes := (modifySlot s l fun y => { y with entry := some (updatedEntry e f), suspect := false }).lanes }
        if s.voyage ≠ .setup ∧ e.admin = .closed ∧ f.admin = some .opened then endEvent s (capacityFreed t) else t
      else replied q .badField .empty s) := by
  change Host.Outcome.next (serve q _ (actWriteLane l f) s) = _
  have act : actWriteLane l f (took .fwd s) = updateLane (took .fwd s) l e f := by
    unfold actWriteLane
    rw [show slotOf (took .fwd s) l = some x from slot]
    dsimp only
    rw [defined]
  have geometry : (!inSetup (took .fwd s) && carriesGeometry f) = true ↔ s.voyage ≠ .setup ∧ carriesGeometry f = true := by
    rw [Bool.and_eq_true, Bool.not_eq_true', inSetup_took, inSetup_false_iff]
  have opens : (!inSetup (took .fwd s) && e.admin == .closed && (updatedEntry e f).admin == .opened) = true
      ↔ s.voyage ≠ .setup ∧ e.admin = .closed ∧ f.admin = some .opened := by
    rw [Bool.and_eq_true, Bool.and_eq_true, Bool.not_eq_true', inSetup_took, inSetup_false_iff, beq_iff_eq, beq_iff_eq, and_assoc]
    refine and_congr_right fun _ => and_congr_right fun closed => ?_
    unfold updatedEntry written
    dsimp only
    cases f.admin with
    | none => rw [closed]; exact ⟨nofun, nofun⟩
    | some a => simp
  have written : setSuspect (setEntry (took .fwd s) l (some (updatedEntry e f))) l false
      = { took .fwd s with
          lanes := (modifySlot s l fun y => { y with entry := some (updatedEntry e f), suspect := false }).lanes } := by
    unfold setSuspect setEntry
    rw [modifySlot_modifySlot, modifySlot_took]
  split
  · rename_i shut
    exact serve_refuses h (by rw [act]; unfold updateLane; rw [if_pos (geometry.2 shut)])
  · rename_i open_
    have stays : ¬ (!inSetup (took .fwd s) && carriesGeometry f) = true := fun x => open_ (geometry.1 x)
    split
    · rename_i good
      have answers : ∀ after, (if (!inSetup (took .fwd s) && e.admin == .closed && (updatedEntry e f).admin == .opened) = true
            then After.freed else .nothing) = after →
          actWriteLane l f (took .fwd s)
            = { st := { took .fwd s with
                  lanes := (modifySlot s l fun y => { y with entry := some (updatedEntry e f), suspect := false }).lanes }
                code := .ok, body := .empty, after := after } := fun after ha => by
        rw [act]; unfold updateLane
        rw [if_neg stays]
        dsimp only
        rw [if_pos (Bool.and_eq_true_iff.2 good), written, ha]
      dsimp only
      split
      · rename_i opening
        exact congrArg _ (serve_freed h (answers _ (if_pos (opens.2 opening))))
      · rename_i still
        exact congrArg _ (serve_next h (answers _ (if_neg fun x => still (opens.1 x))) rfl)
    · rename_i bad
      refine serve_refuses h ?_
      rw [act]; unfold updateLane
      rw [if_neg stays]
      exact if_neg fun x => bad (Bool.and_eq_true_iff.1 x)

theorem undefineLane_answers {q : ReqHead} {l : Lane} {s : State} (h : Addressed q (.undefineLane l) s) :
    exec (.writeLaneUndefine q l) s = .next
      (if inRange s l = false then replied q .noSuch .empty s
      else if s.voyage ≠ .setup then replied q .wrongState .empty s
      else { replied q .ok .empty s with lanes := (modifySlot s l fun y => { y with entry := none }).lanes }) := by
  change Host.Outcome.next (serve q _ (actUndefineLane l) s) = _
  have range : inRange (took .fwd s) l = inRange s l := rfl
  split
  · rename_i out
    exact serve_refuses h (by unfold actUndefineLane; rw [range, out]; rfl)
  · rename_i inside
    rw [Bool.not_eq_false] at inside
    split
    · rename_i shut
      exact serve_refuses h (by unfold actUndefineLane; rw [range, inside, inSetup_took, inSetup_false_iff.2 shut]; rfl)
    · rename_i setup
      have setup : inSetup s = true := inSetup_iff.2 (not_not.1 setup)
      have taken : actUndefineLane l (took .fwd s)
          = answer { took .fwd s with lanes := (modifySlot s l fun y => { y with entry := none }).lanes } .empty := by
        unfold actUndefineLane
        rw [range, inside, inSetup_took, setup, ← modifySlot_took]
        rfl
      exact serve_takes h taken rfl

theorem laneFieldsIn_iff (f : LaneFields) :
    laneFieldsIn f = true ↔
      natIn 1 8 f.deck = true ∧ intIn (-250) 250 f.arm = true ∧ intIn (-1500) 1500 f.stopArm = true
        ∧ natIn 50 2500 f.usable = true ∧ natIn 150 600 f.clearance = true ∧ natIn 0 15 f.plugs = true
        ∧ natIn 0 255 (f.port.getD none) = true ∧ natIn 0 255 (f.starboard.getD none) = true
        ∧ natIn 5 1200 f.unitMass = true := by
  unfold laneFieldsIn
  simp only [Bool.and_eq_true, and_assoc]

/-- A neighbour field lies in its range unless it carries a lane number above 255. -/
theorem natIn_neighbour (p : Option (Option Nat)) : natIn 0 255 (p.getD none) = true ↔ ∀ n, p = some (some n) → n ≤ 255 := by
  rcases p with - | - | n <;> simp [natIn]

theorem neighboursGood_iff (l : Lane) (e : LaneEntry) :
    neighboursGood l e = true ↔
      e.port ≠ some l ∧ e.starboard ≠ some l ∧ ∀ n, e.port = some n → e.starboard ≠ some n := by
  unfold neighboursGood
  simp only [Bool.and_eq_true, Bool.or_eq_true, bne_iff_ne, and_assoc]
  refine and_congr_right fun _ => and_congr_right fun _ => ?_
  cases e.port with
  | none => exact ⟨fun _ _ => nofun, fun _ => .inl rfl⟩
  | some n =>
    refine ⟨fun x m hm => ?_, fun x => .inr (x n rfl).symm⟩
    rcases x with x | x
    · cases x
    · rw [← hm]; exact x.symm

theorem carriesGeometry_false_iff (f : LaneFields) :
    carriesGeometry f = false ↔
      f.deck = none ∧ f.arm = none ∧ f.stopArm = none ∧ f.usable = none ∧ f.clearance = none ∧ f.plugs = none
        ∧ f.kinds = none ∧ f.port = none ∧ f.starboard = none := by
  unfold carriesGeometry
  simp only [Bool.or_eq_false_iff, Option.isSome_eq_false_iff, Option.isNone_iff_eq_none, and_assoc]

theorem definedEntry_some_iff (f : LaneFields) (e : LaneEntry) :
    definedEntry f = some e ↔
      f.deck = some e.deck ∧ f.arm = some e.arm ∧ f.stopArm = some e.stopArm ∧ f.usable = some e.usable
        ∧ f.clearance = some e.clearance ∧ f.plugs = some e.plugs ∧ f.kinds = some e.kinds
        ∧ e.port = f.port.getD none ∧ e.starboard = f.starboard.getD none ∧ e.admin = f.admin.getD .opened
        ∧ e.laneMass = (f.laneMass.map BitVec.toNat).getD 65535 ∧ e.unitMass = f.unitMass.getD 1200 := by
  unfold definedEntry
  constructor
  · intro h
    split at h
    · cases h
      exact ⟨‹_›, ‹_›, ‹_›, ‹_›, ‹_›, ‹_›, ‹_›, rfl, rfl, rfl, rfl, rfl⟩
    · cases h
  · rintro ⟨deck, arm, stopArm, usable, clearance, plugs, kinds, port, starboard, admin, laneMass, unitMass⟩
    rw [deck, arm, stopArm, usable, clearance, plugs, kinds, ← port, ← starboard, ← admin, ← laneMass, ← unitMass]

/-- Settles O41, by the slot the request names and what it holds. -/
theorem writeLaneAnswers : Obligations.WriteLaneAnswers := by
  refine ⟨fun q l f s => ⟨fun h => ?_, fun h => undefineLane_answers h⟩, fun l f e => ⟨?_, neighboursGood_iff l e,
    carriesGeometry_false_iff f, ?_, ?_⟩⟩
  · split
    · rename_i none
      change Host.Outcome.next (serve q _ (actWriteLane l f) s) = _
      exact serve_refuses h (by unfold actWriteLane; rw [show slotOf (took .fwd s) l = _ from none])
    · rename_i x slot
      split
      · rename_i undefined; exact defineLane_answers h slot undefined
      · rename_i e defined; exact updateLane_answers h slot defined
  · rw [laneFieldsIn_iff, natIn_neighbour, natIn_neighbour]
    simp only [natIn_iff, intIn_iff]
  · rw [definedEntry_some_iff]
    cases f.laneMass <;> exact Iff.rfl
  · unfold updatedEntry
    congr 1
    cases f.laneMass <;> rfl

end Sys2Proof.Machine

namespace Sys2Proof.Machine

/-! ### WRITE DECK and WRITE SECTION -/

theorem writeDeck_answers {q : ReqHead} {deck limit : Nat} {s : State} (h : Addressed q (.writeDeck deck limit) s) :
    exec (.writeDeck q deck limit) s = .next
      (if deck < 1 ∨ 8 < deck then replied q .badField .empty s
      else if Table.find s.decks deck = none ∧ s.voyage ≠ .setup then replied q .wrongState .empty s
      else if 1000000 < limit then replied q .badField .empty s
      else if Table.find s.decks deck = none ∧ 4 ≤ s.decks.length then replied q .full .empty s
      else { replied q .ok .empty s with decks := Table.put deck limit s.decks }) := by
  change Host.Outcome.next (serve q _ (actWriteDeck deck limit) s) = _
  by_cases number : deck < 1 ∨ 8 < deck
  · rw [if_pos number]
    exact serve_refuses h (if_pos number)
  rw [if_neg number]
  cases found : Table.find s.decks deck with
  | some old =>
    rw [if_neg (fun x => nomatch x.1)]
    have act : actWriteDeck deck limit (took .fwd s)
        = if 1000000 < limit then refuse (took .fwd s) .badField else taken (setDeck (took .fwd s) deck limit) := by
      unfold actWriteDeck
      rw [if_neg number, show Table.find (took .fwd s).decks deck = _ from found]
    by_cases high : 1000000 < limit
    · rw [if_pos high]
      exact serve_refuses h (act.trans (if_pos high))
    · rw [if_neg high, if_neg (fun x => nomatch x.1)]
      exact serve_takes h (act.trans (if_neg high)) rfl
  | none =>
    have act : actWriteDeck deck limit (took .fwd s)
        = if !inSetup s then refuse (took .fwd s) .wrongState
          else if 1000000 < limit then refuse (took .fwd s) .badField
          else if 4 ≤ s.decks.length then refuse (took .fwd s) .full
          else taken (setDeck (took .fwd s) deck limit) := by
      unfold actWriteDeck
      rw [if_neg number, show Table.find (took .fwd s).decks deck = _ from found]
      rfl
    by_cases setup : s.voyage = .setup
    · rw [if_neg fun x => x.2 setup]
      rw [inSetup_iff.2 setup] at act
      by_cases high : 1000000 < limit
      · rw [if_pos high]
        exact serve_refuses h (act.trans (if_pos high))
      · rw [if_neg high]
        by_cases full : 4 ≤ s.decks.length
        · rw [if_pos ⟨rfl, full⟩]
          exact serve_refuses h (act.trans ((if_neg high).trans (if_pos full)))
        · rw [if_neg fun x => full x.2]
          exact serve_takes h (act.trans ((if_neg high).trans (if_neg full))) rfl
    · rw [if_pos ⟨rfl, setup⟩]
      rw [inSetup_false_iff.2 setup] at act
      exact serve_refuses h act

theorem removeDeck_answers {q : ReqHead} {deck : Nat} {s : State} (h : Addressed q (.removeDeck deck) s) :
    exec (.writeDeckRemove q deck) s = .next
      (if deck < 1 ∨ 8 < deck then replied q .badField .empty s
      else if Table.find s.decks deck = none then replied q .noSuch .empty s
      else if s.voyage ≠ .setup then replied q .wrongState .empty s
      else { replied q .ok .empty s with decks := Table.drop deck s.decks }) := by
  change Host.Outcome.next (serve q _ (actRemoveDeck deck) s) = _
  by_cases number : deck < 1 ∨ 8 < deck
  · rw [if_pos number]
    exact serve_refuses h (if_pos number)
  rw [if_neg number]
  cases found : Table.find s.decks deck with
  | none =>
    rw [if_pos rfl]
    refine serve_refuses h ?_
    unfold actRemoveDeck
    rw [if_neg number, show Table.find (took .fwd s).decks deck = _ from found]
  | some old =>
    rw [if_neg nofun]
    have act : actRemoveDeck deck (took .fwd s)
        = if !inSetup s then refuse (took .fwd s) .wrongState
          else taken { took .fwd s with decks := Table.drop deck s.decks } := by
      unfold actRemoveDeck
      rw [if_neg number, show Table.find (took .fwd s).decks deck = _ from found]
      rfl
    by_cases setup : s.voyage = .setup
    · rw [if_neg (not_not.2 setup)]
      rw [inSetup_iff.2 setup] at act
      exact serve_takes h act rfl
    · rw [if_pos setup]
      rw [inSetup_false_iff.2 setup] at act
      exact serve_refuses h act

theorem sectionMoving_iff {s : State} {id : Nat} :
    sectionMoving s id = true ↔ ∃ e, Table.find s.sections id = some e ∧ e.state ≠ .stowed := by
  unfold sectionMoving
  cases Table.find s.sections id <;> simp

/-- A section request ahead of the test of its values: an id above 5, then the states that refuse it (R12, R13). -/
theorem sectionShut_iff {s : State} {id : Nat} : (!inSetup s || sectionMoving s id) = true ↔
    s.voyage ≠ .setup ∨ ∃ e, Table.find s.sections id = some e ∧ e.state ≠ .stowed := by
  rw [Bool.or_eq_true, Bool.not_eq_true', inSetup_false_iff, sectionMoving_iff]

theorem laneListGood_iff (l : List Lane) : laneListGood l = true ↔ 1 ≤ l.length ∧ l.length ≤ 8 ∧ l.Nodup := by
  unfold laneListGood
  simp only [Bool.and_eq_true, decide_eq_true_eq, and_assoc]

theorem hoistLanesFree_iff (s : State) (id : Nat) (hoist : List Lane) : hoistLanesFree s id hoist = true ↔
    ∀ e ∈ s.sections, e.1 ≠ id → ∀ l ∈ hoist, l ∉ e.2.hoist := by
  unfold hoistLanesFree
  simp only [List.all_eq_true, Bool.or_eq_true, beq_iff_eq, Bool.not_eq_true', List.contains_eq_mem, decide_eq_false_iff_not]
  exact forall₂_congr fun e _ => or_iff_not_imp_left

theorem sectionGood_iff {s : State} {id : Nat} {hoist covered : List Lane} {reduced : Nat} {travel : Option Nat} :
    sectionGood s id hoist covered reduced travel = true ↔
      1 ≤ hoist.length ∧ hoist.length ≤ 8 ∧ hoist.Nodup ∧ 1 ≤ covered.length ∧ covered.length ≤ 8
        ∧ covered.Nodup ∧ (∀ l ∈ hoist, l ∉ covered)
        ∧ (∀ e ∈ s.sections, e.1 ≠ id → ∀ l ∈ hoist, l ∉ e.2.hoist)
        ∧ 150 ≤ reduced ∧ reduced ≤ 600 ∧ (∀ t, travel = some t → 10 ≤ t ∧ t ≤ 600) := by
  unfold sectionGood
  simp only [Bool.and_eq_true, laneListGood_iff, hoistLanesFree_iff, natIn_iff, List.all_eq_true, Bool.not_eq_true',
    List.contains_eq_mem, decide_eq_false_iff_not, decide_eq_true_eq, and_assoc]

theorem writeSection_answers {q : ReqHead} {id : Nat} {hoist covered : List Lane} {reduced : Nat} {travel : Option Nat}
    {s : State} (h : Addressed q (.writeSection id hoist covered reduced travel) s) :
    exec (.writeSection q id hoist covered reduced travel) s = .next
      (if 5 < id then replied q .badField .empty s
      else if !inSetup s || sectionMoving s id then replied q .wrongState .empty s
      else if !sectionGood s id hoist covered reduced travel then replied q .badField .empty s
      else { replied q .ok .empty s with
        sections := Table.put id
          { hoist := hoist, covered := covered, reduced := reduced, travel := travel.getD 120, state := .stowed
            timer := none } s.sections }) := by
  change Host.Outcome.next (serve q _ (actWriteSection id hoist covered reduced travel) s) = _
  split
  · rename_i high
    exact serve_refuses h (if_pos high)
  · rename_i low
    split
    · rename_i shut
      exact serve_refuses h ((if_neg low).trans (if_pos shut))
    · rename_i open_
      split
      · rename_i bad
        exact serve_refuses h ((if_neg low).trans ((if_neg open_).trans (if_pos bad)))
      · rename_i good
        have taken : actWriteSection id hoist covered reduced travel (took .fwd s) = taken (setSection (took .fwd s) id _) :=
          (if_neg low).trans ((if_neg open_).trans (if_neg good))
        exact serve_takes h taken rfl

theorem removeSection_answers {q : ReqHead} {id : Nat} {s : State} (h : Addressed q (.removeSection id) s) :
    exec (.writeSectionRemove q id) s = .next
      (if 5 < id then replied q .badField .empty s
      else if !inSetup s || sectionMoving s id then replied q .wrongState .empty s
      else { replied q .ok .empty s with sections := Table.drop id s.sections }) := by
  change Host.Outcome.next (serve q _ (actRemoveSection id) s) = _
  split
  · rename_i high
    exact serve_refuses h (if_pos high)
  · rename_i low
    split
    · rename_i shut
      exact serve_refuses h ((if_neg low).trans (if_pos shut))
    · rename_i open_
      have taken : actRemoveSection id (took .fwd s)
          = answer { took .fwd s with sections := Table.drop id s.sections } .empty :=
        (if_neg low).trans (if_neg open_)
      exact serve_takes h taken rfl

/-- Settles O42, by the tests of each request in their order. -/
theorem writeDeckAndSectionAnswer : Obligations.WriteDeckAndSectionAnswer := by
  refine ⟨fun q deck limit s => ⟨fun h => writeDeck_answers h, fun h => removeDeck_answers h⟩,
    fun q id hoist covered reduced travel s => ?_⟩
  intro moving good
  have shut : (!inSetup s || sectionMoving s id) = true ↔ s.voyage ≠ .setup ∨ moving := sectionShut_iff
  have open_ (setup : s.voyage = .setup) (still : ¬ moving) : ¬ (!inSetup s || sectionMoving s id) = true := fun x =>
    (shut.1 x).elim (fun n => n setup) still
  have sound : (!sectionGood s id hoist covered reduced travel) = true ↔ ¬ good := by
    rw [Bool.not_eq_true', Bool.eq_false_iff]; exact not_congr sectionGood_iff
  refine ⟨fun h => ?_, fun h => ?_⟩
  · intro run
    have answers : run = _ := writeSection_answers h
    refine ⟨fun high => ?_, fun low closed => ?_, fun low setup still bad => ?_, fun low setup still fine => ?_⟩
    · rw [answers, if_pos high]
    · rw [answers, if_neg (Nat.not_lt.2 low), if_pos (shut.2 closed)]
    · rw [answers, if_neg (Nat.not_lt.2 low), if_neg (open_ setup still), if_pos (sound.2 bad)]
    · rw [answers, if_neg (Nat.not_lt.2 low), if_neg (open_ setup still), if_neg fun x => sound.1 x fine]
  · intro run
    have answers : run = _ := removeSection_answers h
    refine ⟨fun high => ?_, fun low closed => ?_, fun low setup still => ?_⟩
    · rw [answers, if_pos high]
    · rw [answers, if_neg (Nat.not_lt.2 low), if_pos (shut.2 closed)]
    · rw [answers, if_neg (Nat.not_lt.2 low), if_neg (open_ setup still)]

/-! ### WRITE SEGREGATION -/

/-- The triple names the unordered pair of two classes. -/
def namesPair (c d : Nat) (x : Nat × Nat × Nat) : Bool := (x.1 == c && x.2.1 == d) || (x.1 == d && x.2.1 == c)

theorem namesPair_iff {c d : Nat} {x : Nat × Nat × Nat} :
    namesPair c d x = true ↔ (c = x.1 ∧ d = x.2.1) ∨ (c = x.2.1 ∧ d = x.1) := by
  unfold namesPair
  simp only [Bool.or_eq_true, Bool.and_eq_true, beq_iff_eq]
  omega

/-- The code that the last triple naming a pair writes, where one does. -/
def lastCode (ts : List (Nat × Nat × Nat)) (c d : Nat) (held : SegCode) : SegCode :=
  ((ts.reverse.find? (namesPair c d)).map tripleCode).getD held

/-- Triples applied in order: a pair takes the code of the last one that names it. -/
theorem segAt_foldl {ts : List (Nat × Nat × Nat)} {c d : Nat} (hd : d ≤ 15) : ∀ m : List (Nat × SegCode),
    (∀ t ∈ ts, tripleGood t = true) →
      segAt (ts.foldl applyTriple m) (segKey c d) = lastCode ts c d (segAt m (segKey c d)) := by
  induction ts using List.reverseRecOn with
  | nil => exact fun _ _ => rfl
  | append_singleton ts t ih =>
    intro m good
    rw [List.foldl_append, List.foldl_cons, List.foldl_nil,
      segAt_applyTriple_classes (good t (List.mem_append_right _ List.mem_cons_self)) _ hd]
    unfold lastCode
    rw [List.reverse_append, List.reverse_singleton, List.singleton_append, List.find?_cons]
    by_cases names : namesPair c d t = true
    · rw [if_pos (namesPair_iff.1 names), names]; rfl
    · rw [if_neg fun x => names (namesPair_iff.2 x), Bool.eq_false_iff.2 names]
      exact ih m fun x hx => good x (List.mem_append_left _ hx)

theorem tripleGood_iff (t : Nat × Nat × Nat) :
    tripleGood t = true ↔ 1 ≤ t.1 ∧ t.1 ≤ 15 ∧ 1 ≤ t.2.1 ∧ t.2.1 ≤ 15 ∧ t.2.2 ≤ 4 := by
  unfold tripleGood
  simp only [Bool.and_eq_true, decide_eq_true_eq, and_assoc]

/-- Settles O43, by induction on the triples from the last one back. -/
theorem writeSegregationAnswers : Obligations.WriteSegregationAnswers := by
  refine ⟨fun q ts s h => ?_, rfl, rfl, rfl, rfl, rfl, fun n hn => ?_, fun c => by cases c <;> rfl⟩
  · intro good
    have test : (ts.isEmpty || decide (16 < ts.length) || !ts.all tripleGood) = true ↔ ¬ good := by
      have empty : ts.isEmpty = true ↔ ¬ 1 ≤ ts.length := by cases ts <;> simp
      have within : ts.all tripleGood = true
          ↔ ∀ x ∈ ts, 1 ≤ x.1 ∧ x.1 ≤ 15 ∧ 1 ≤ x.2.1 ∧ x.2.1 ≤ 15 ∧ x.2.2 ≤ 4 := by
        simp only [List.all_eq_true, tripleGood_iff]
      rw [Bool.or_eq_true, Bool.or_eq_true, decide_eq_true_eq, Bool.not_eq_true', Bool.eq_false_iff, Ne, within, empty,
        ← Nat.not_le, or_assoc, ← not_and_or, ← not_and_or]
    change (_ → Host.Outcome.next (serve q _ (actWriteSegregation ts) s) = _) ∧ (_ → _ →
      Host.Outcome.next (serve q _ (actWriteSegregation ts) s) = _) ∧ (_ → _ → ∃ t,
      Host.Outcome.next (serve q _ (actWriteSegregation ts) s) = _ ∧ _)
    refine ⟨fun shut => ?_, fun setup bad => ?_, fun setup fine => ?_⟩
    · exact serve_refuses h (by unfold actWriteSegregation; rw [inSetup_took, inSetup_false_iff.2 shut]; rfl)
    · refine serve_refuses h ?_
      unfold actWriteSegregation
      rw [inSetup_took, inSetup_iff.2 setup]
      exact if_pos (test.2 bad)
    · have taken : actWriteSegregation ts (took .fwd s)
          = answer { took .fwd s with segregation := ts.foldl applyTriple s.segregation } .empty := by
        unfold actWriteSegregation
        rw [inSetup_took, inSetup_iff.2 setup]
        exact if_neg fun x => test.1 x fine
      refine ⟨_, serve_takes h taken rfl, rfl, fun c d _ _ _ hd => ?_⟩
      have last := segAt_foldl (c := c) hd s.segregation fun t ht => (tripleGood_iff t).2 (fine.2.2 t ht)
      rw [segGet_eq]
      refine last.trans ?_
      unfold lastCode
      change ((ts.reverse.find? (namesPair c d)).map tripleCode).getD _ = match ts.reverse.find? (namesPair c d) with
        | some x => tripleCode x
        | none => segGet s c d
      cases ts.reverse.find? (namesPair c d) <;> rfl
  · obtain ⟨k, rfl⟩ := Nat.exists_eq_add_of_lt hn
    rw [show 4 + k + 1 = k + 5 by omega]; rfl

/-! ### WRITE LIMITS -/

/-- Settles O44: the test of R16 on the state with the new limits, whose figures are those of the state before. -/
theorem writeLimitsAnswers : Obligations.WriteLimitsAnswers := by
  intro q hl lo hi s h n good
  have test : (!intIn 1 1000000000 hl || !intIn (-2147483647) 2147483647 lo || !intIn (-2147483647) 2147483647 hi
      || !decide ((updatedLimits s.limits hl lo hi).tMin < (updatedLimits s.limits hl lo hi).tMax)) = true ↔ ¬ good := by
    have order : decide ((updatedLimits s.limits hl lo hi).tMin < (updatedLimits s.limits hl lo hi).tMax) = true
        ↔ n.tMin < n.tMax := decide_eq_true_iff
    simp only [Bool.or_eq_true, Bool.not_eq_true', Bool.eq_false_iff, Ne, intIn_iff, order, ← not_and_or, and_assoc]
    exact Iff.rfl
  change (_ → Host.Outcome.next (serve q _ (actWriteLimits hl lo hi) s) = _) ∧
    (_ → Host.Outcome.next (serve q _ (actWriteLimits hl lo hi) s) = _)
  refine ⟨fun bad => serve_refuses h (if_pos (test.2 bad)), fun fine => ?_⟩
  have out : (heelOut n (projHeel s) || trimOut n (projTrim s)) = true
      ↔ n.hLim < ((projHeel s).natAbs : Int) ∨ projTrim s < n.tMin ∨ n.tMax < projTrim s := by
    unfold heelOut trimOut
    simp only [Bool.or_eq_true, decide_eq_true_eq]
  have tested : testStability { took .fwd s with limits := n }
      = if heelOut n (projHeel s) || trimOut n (projTrim s) then raiseNotice { took .fwd s with limits := n } .stabilityOut
        else { took .fwd s with limits := n } := by
    unfold testStability
    rfl
  have act : actWriteLimits hl lo hi (took .fwd s)
      = taken (if inSetup s then { took .fwd s with limits := n } else testStability { took .fwd s with limits := n }) :=
    if_neg fun x => test.1 x fine
  dsimp only
  split
  · rename_i sets
    have taken : actWriteLimits hl lo hi (took .fwd s)
        = answer { took .fwd s with limits := n, notices := { s.notices with stabilityOut := true } } .empty := by
      rw [act, inSetup_false_iff.2 sets.1]
      rw [tested, if_pos (out.2 sets.2)]
      rfl
    rw [serve_event h taken]
    rfl
  · rename_i stands
    have taken : actWriteLimits hl lo hi (took .fwd s) = answer { took .fwd s with limits := n } .empty := by
      rw [act]
      by_cases setup : s.voyage = .setup
      · rw [inSetup_iff.2 setup]; rfl
      · rw [inSetup_false_iff.2 setup]
        rw [tested, if_neg fun x => stands ⟨setup, out.1 x⟩]
        rfl
    exact serve_takes h taken rfl

/-! ### READ PROFILE -/

/-- Settles O45, item by item. -/
theorem readProfileAnswers : Obligations.ReadProfileAnswers := by
  intro q i s h
  change Host.Outcome.next (serve q _ (actReadProfile i) s) = _
  cases i with
  | summary => exact serve_answers h rfl
  | lane l =>
    dsimp only
    split
    · rename_i inside; exact serve_answers h (if_pos inside)
    · rename_i out; exact serve_refuses h (if_neg out)
  | deck n =>
    dsimp only
    split
    · rename_i bad; exact serve_refuses h (if_pos bad)
    · rename_i good
      split
      · rename_i limit found
        refine serve_answers h ((if_neg good).trans ?_)
        rw [show Table.find (took .fwd s).decks n = _ from found]
      · rename_i none
        refine serve_refuses h ((if_neg good).trans ?_)
        rw [show Table.find (took .fwd s).decks n = _ from none]
  | hoistSection id =>
    dsimp only
    split
    · rename_i bad; exact serve_refuses h (if_pos bad)
    · rename_i good; exact serve_answers h (if_neg good)
  | segregation c =>
    dsimp only
    split
    · rename_i bad; exact serve_refuses h (if_pos bad)
    · rename_i good; exact serve_answers h (if_neg good)
  | limits => exact serve_answers h rfl
  | policy => exact serve_answers h rfl
  | defaultUnit => exact serve_answers h rfl
  | other n => exact serve_refuses h rfl

end Sys2Proof.Machine

namespace Sys2Proof.Machine

/-! # Stamps and descriptions (O13) -/

/-- The six kinds in the order of their codes (R190). -/
def kindList : List UnitKind := [.car, .van, .truck, .artic, .trailer, .project]

theorem kindOfCode_eq : ∀ k : BitVec 3, kindOfCode k = kindList[k.toNat]? := by decide

theorem descKind_long (k : BitVec 3) (r : Bool) (n : BitVec 3) (m : Mark) (l : Byte) (w h : BitVec 16) (z : Byte) :
    descKind (.long k r n m l w h z) = kindList[k.toNat]? := kindOfCode_eq k

theorem shortKind_eq : ∀ k : BitVec 3, (match kindOfCode k with
    | some .car => some UnitKind.car
    | some .van => some .van
    | _ => none) = (kindList.take 2)[k.toNat]? := by decide

theorem descKind_short (k n : BitVec 3) (m : Mark) (l w : BitVec 6) (h : BitVec 3) :
    descKind (.short k n m l w h) = (kindList.take 2)[k.toNat]? := (shortKind_eq k).symm ▸ rfl

/-- No code of a rank names one outside 1..8. -/
theorem rankCode_good (n : BitVec 3) : ¬ n.toNat + 1 < 1 ∧ ¬ 8 < n.toNat + 1 := by have := n.isLt; omega

theorem descFaulty_iff (d : Desc) : descFaulty d = true ↔
    descKind d = none ∨ descMass d < 5 ∨ 1200 < descMass d ∨ descLength d < 20 ∨ 250 < descLength d ∨ descHeight d < 100
      ∨ descRank d < 1 ∨ 8 < descRank d ∨ ∃ z, descHazard d = some z ∧ 15 < z := by
  unfold descFaulty
  simp only [Bool.or_eq_true, Option.isNone_iff_eq_none, decide_eq_true_eq, or_assoc]
  cases descHazard d <;> simp

theorem descFaulty_long (k : BitVec 3) (r : Bool) (n : BitVec 3) (m : Mark) (l : Byte) (w h : BitVec 16) (z : Byte) :
    descFaulty (.long k r n m l w h z) = true ↔
      w.toNat < 5 ∨ 1200 < w.toNat ∨ l.toNat < 20 ∨ 250 < l.toNat ∨ h.toNat < 100 ∨ 6 ≤ k.toNat ∨ 15 < z.toNat := by
  have kind : descKind (.long k r n m l w h z) = none ↔ 6 ≤ k.toNat := by
    rw [descKind_long, List.getElem?_eq_none_iff]; rfl
  have hazard : (∃ c, descHazard (.long k r n m l w h z) = some c ∧ 15 < c) ↔ 15 < z.toNat := by
    simp only [descHazard]
    split
    · simp; omega
    · simp
  have rank := rankCode_good n
  rw [descFaulty_iff, kind, hazard]
  simp only [descMass, descLength, descHeight, descRank]
  omega

theorem descFaulty_short (k n : BitVec 3) (m : Mark) (l w : BitVec 6) (h : BitVec 3) :
    descFaulty (.short k n m l w h) = true ↔ 1 < k.toNat := by
  have kind : descKind (.short k n m l w h) = none ↔ 1 < k.toNat := by
    rw [descKind_short, List.getElem?_eq_none_iff]; rfl
  have rank := rankCode_good n
  have := l.isLt
  have := w.isLt
  rw [descFaulty_iff, kind]
  simp only [descMass, descLength, descHeight, descRank, descHazard, reduceCtorEq, false_and, exists_false, or_false]
  omega

/-- A description of a kind, without a fault, gives its unit. -/
theorem descUnit_of_kind {d : Desc} {kind : UnitKind} (f : descFaulty d = false) (e : descKind d = some kind) :
    descUnit d = some
      { mark := descMark d, kind := kind, length := descLength d, mass := descMass d, height := min (descHeight d) 600
        rank := descRank d, hazard := descHazard d, reefer := descReefer d } := by
  unfold descUnit; rw [f, e]; rfl

theorem descUnit_faulty {d : Desc} (f : descFaulty d = true) : descUnit d = none := by
  unfold descUnit; rw [f]; rfl

theorem descExactUnit_of_height (d : Desc) : descExactUnit d = if 600 < descHeight d then none else descUnit d := by
  unfold descExactUnit descTall
  simp only [decide_eq_true_eq]

/-- No short form is above 600 cm: its code names 325 cm at most. -/
theorem descHeight_short (k n : BitVec 3) (m : Mark) (l w : BitVec 6) (h : BitVec 3) :
    descHeight (.short k n m l w h) ≤ 600 := by
  have := h.isLt
  simp only [descHeight]; omega

theorem descMark_clamp (d : Desc) : descMark (descClamp d) = descMark d := by cases d <;> rfl

theorem descHeight_clamp (d : Desc) : descHeight (descClamp d) = min (descHeight d) 600 := by
  cases d with
  | long k r n m l w h z =>
    simp only [descClamp, descHeight]
    split
    · rename_i high; exact (Nat.min_eq_right high.le).symm
    · rename_i low; exact (Nat.min_eq_left (Nat.le_of_not_lt low)).symm
  | short k n m l w h => exact (Nat.min_eq_left (descHeight_short k n m l w h)).symm

/-- Settles O13: the stamp field by field, then each form of a description. -/
theorem stampAndValidate : Obligations.StampAndValidate := by
  refine ⟨fun c s => ⟨rfl, rfl, descMark_clamp _, descHeight_clamp _, rfl, rfl, fun faulty => ?_, fun sound e => ?_, rfl⟩,
    fun k r n m l w h z => ?_, fun k n m l w h => ?_⟩
  · exact if_pos faulty
  · unfold stampState
    rw [sound]
    exact List.mem_filter.trans (and_congr_right fun _ => bne_iff_ne)
  · refine ⟨descFaulty_long k r n m l w h z, descKind_long .., rfl, rfl, rfl, rfl, rfl, rfl, rfl, descUnit_faulty,
      fun sound kind e => ?_, descExactUnit_of_height _⟩
    exact descUnit_of_kind sound ((descKind_long ..).trans e)
  · refine ⟨descFaulty_short k n m l w h, descKind_short .., rfl, rfl, rfl, rfl, rfl, rfl, rfl, descUnit_faulty,
      fun kind e => ?_, ?_⟩
    · have sound : descFaulty (.short k n m l w h) = false := by
        rw [Bool.eq_false_iff, Ne, descFaulty_short]
        have := (List.getElem?_eq_some_iff.1 e).1
        exact Nat.not_lt.2 (Nat.le_of_lt_succ this)
      rw [descUnit_of_kind sound ((descKind_short ..).trans e), Nat.min_eq_left (descHeight_short k n m l w h)]
      rfl
    · rw [descExactUnit_of_height, if_neg (Nat.not_lt.2 (descHeight_short k n m l w h))]

end Sys2Proof.Machine

namespace Sys2Proof.Machine

/-! # Commits, moves and conversions (O28) -/

/-! ## The judgement -/

theorem getRec_judge (s : State) (m : Mark) (l : Lane) (rank : Nat) (a : Option UnitRec) (g : Handle) :
    getRec (judge s m l rank a) g = getRec s g := getRec_congr (by rw [judge_only]) g

theorem occupantsOf_judge (s : State) (m : Mark) (l : Lane) (rank : Nat) (a : Option UnitRec) (k : Lane) :
    occupantsOf (judge s m l rank a) k = occupantsOf s k :=
  occupantsOf_of_slot (slotOf_congr (by rw [judge_only]) (by rw [judge_only]) k)

theorem judge_gaps (s : State) (m : Mark) (l : Lane) (rank : Nat) (a : Option UnitRec) :
    (judge s m l rank a).gaps = s.gaps := by rw [judge_only]

/-- What the judgement's tests read stands: the figures of the moments, their limits and the holding sections. -/
structure SameFigures (s t : State) : Prop where
  heel : projHeel t = projHeel s
  trim : projTrim t = projTrim s
  limits : t.limits = s.limits
  holders : ∀ l, holders t l = holders s l

theorem sameFigures_post (s : State) (k : ExcKind) (m : Option Mark) (l : Option Lane) (m2 : Option Mark)
    (d : Option ExcDetail) : SameFigures s (post s k m l m2 d) := by
  rw [post_only]; exact ⟨rfl, rfl, rfl, fun _ => rfl⟩

theorem sameFigures_postOrder (s : State) (m : Mark) (l : Lane) (rank : Nat) (a : Option UnitRec) :
    SameFigures s (postOrder s m l rank a) := by
  unfold postOrder; split
  · exact ⟨rfl, rfl, rfl, fun _ => rfl⟩
  · split
    · exact sameFigures_post ..
    · exact ⟨rfl, rfl, rfl, fun _ => rfl⟩

theorem sameFigures_postMoving (s : State) (m : Mark) (l : Lane) : SameFigures s (postMoving s m l) := by
  unfold postMoving; split
  · exact ⟨rfl, rfl, rfl, fun _ => rfl⟩
  · exact sameFigures_post ..

/-- The three tests of a judgement, each made on the state that it begins in (R16, R120). -/
theorem judge_eq (s : State) (m : Mark) (l : Lane) (rank : Nat) (a : Option UnitRec) :
    judge s m l rank a =
      if s.limits.hLim < ((projHeel s).natAbs : Int) ∨ projTrim s < s.limits.tMin ∨ s.limits.tMax < projTrim s then
        raiseNotice (postMoving (postOrder s m l rank a) m l) .stabilityOut
      else postMoving (postOrder s m l rank a) m l := by
  have f := sameFigures_postOrder s m l rank a
  have g := sameFigures_postMoving (postOrder s m l rank a) m l
  unfold judge testStability heelOut trimOut
  rw [g.limits, f.limits, g.heel, f.heel, g.trim, f.trim]
  simp only [Bool.or_eq_true, decide_eq_true_eq]

/-! ## A promotion -/

theorem aboardPart_without {s : State} {o : List Handle} {h : Handle} (e : isAboard s h = false) :
    aboardPart s (o.filter (· != h)) = aboardPart s o := by
  unfold aboardPart
  rw [List.filter_filter]
  refine List.filter_congr fun g _ => ?_
  by_cases gh : g = h
  · rw [gh, e]; rfl
  · rw [bne_iff_ne.2 gh, Bool.and_true]

theorem pendingPart_without {s : State} {o : List Handle} {h : Handle} :
    pendingPart s (o.filter (· != h)) = (pendingPart s o).filter (· != h) := by
  unfold pendingPart
  rw [List.filter_filter, List.filter_filter]
  exact List.filter_congr fun g _ => Bool.and_comm ..

/-- What a promotion of `h` in lane `l` of state `s` leaves of the Stow Map (R32, R37, R41). -/
structure Promoted (s t : State) (h : Handle) (l : Lane) : Prop where
  list : occupantsOf t l
    = aboardPart s (occupantsOf s l) ++ [h] ++ (pendingPart s (occupantsOf s l)).filter (· != h)
  self : getRec t h = aboardRecord (getRec s h) l
    (offsetBehind s (aftOf s (aboardPart s (occupantsOf s l))) (recKind (getRec s h))) (stopArmOf s l) s.stowClock
  aboard : ∀ g, g ≠ h → isAboard s g = true → getRec t g = getRec s g
  elsewhere : ∀ g, g ≠ h → g ∉ occupantsOf s l → getRec t g = getRec s g
  eta : ∀ g, g ≠ h → ∃ o c k, getRec t g = { getRec s g with offset := o, centre := c, changed := k }
  packed : (occupantsOf s l).Nodup →
    packedBehind t (aftOf t (aboardPart s (occupantsOf s l) ++ [h])) ((pendingPart s (occupantsOf s l)).filter (· != h)) = true
  stays : (occupantsOf s l).Nodup → ∀ g, g ≠ h → (getRec t g).offset = (getRec s g).offset → getRec t g = getRec s g
  moves : (occupantsOf s l).Nodup → ∀ g, g ≠ h → (getRec t g).offset ≠ (getRec s g).offset → (getRec t g).changed = true
    ∧ ∃ o : Nat, (getRec t g).offset = some o
      ∧ (getRec t g).centre = some (centreArm (stopArmOf s l) o (recLength (getRec s g)))

theorem promote_promoted {s : State} {h : Handle} {l : Lane} (e : isAboard s h = false) (slot : (slotOf s l).isSome = true) :
    Promoted s (promote s h l) h l := by
  have promoted : promote s h l = placeAboard (setOccupants s l ((occupantsOf s l).filter (· != h))) h l := rfl
  have slotY : (slotOf (setOccupants s l ((occupantsOf s l).filter (· != h))) l).isSome = true := by
    rw [slotOf_setOccupants, if_pos rfl, Option.isSome_map]; exact slot
  have occ := occupantsOf_setOccupants s ((occupantsOf s l).filter (· != h)) slot
  have recs := getRec_setOccupants s l ((occupantsOf s l).filter (· != h))
  have gaps : (setOccupants s l ((occupantsOf s l).filter (· != h))).gaps = s.gaps := by rw [setOccupants_only]
  have clock : (setOccupants s l ((occupantsOf s l).filter (· != h))).stowClock = s.stowClock := by rw [setOccupants_only]
  have stop : stopArmOf (setOccupants s l ((occupantsOf s l).filter (· != h))) l = stopArmOf s l := by
    unfold stopArmOf; rw [entryOf_setOccupants]
  rw [promoted]
  generalize setOccupants s l ((occupantsOf s l).filter (· != h)) = y at slotY occ recs gaps clock stop ⊢
  have aboard : ∀ g, isAboard y g = isAboard s g := fun g => by unfold isAboard; rw [recs]
  obtain ⟨ab, pend⟩ := filter_congr_aboard (s := s) (t := y) (o := (occupantsOf s l).filter (· != h)) fun g _ => aboard g
  have aft : ∀ o, aftOf y o = aftOf s o := fun o => aftOf_congr fun g _ => by rw [recs]
  have behind : ∀ a k, offsetBehind y a k = offsetBehind s a k := fun a k => by unfold offsetBehind; rw [gaps]
  have off : h ∉ occupantsOf y l := by rw [occ]; simp
  obtain ⟨list, self, aboardSame, otherSame, -⟩ := placeAboard_spec y h l slotY
  obtain ⟨eta, packs⟩ := placeAboard_packs y h l off slotY
  rw [occ, ab, pend, aboardPart_without e, pendingPart_without] at list packs
  rw [occ, ab, aboardPart_without e, aft, recs, behind, stop, clock] at self
  simp only [recs, stop] at eta packs
  exact
    { list := list
      self := self
      aboard := fun g gh a => by rw [aboardSame g gh ((aboard g).trans a), recs]
      elsewhere := fun g gh n => by
        rw [otherSame g gh fun m => n ?_, recs]
        rw [occ] at m; exact (List.mem_filter.1 m).1
      eta := eta
      packed := fun nd => (packs (nd.filter _)).1
      stays := fun nd => (packs (nd.filter _)).2.1
      moves := fun nd => (packs (nd.filter _)).2.2 }

/-- What a promotion leaves of the Stow Map stands through what touches no record, list or gap. -/
theorem Promoted.of_same {s t t' : State} {h : Handle} {l : Lane} (p : Promoted s t h l)
    (recs : ∀ g, getRec t' g = getRec t g) (occ : occupantsOf t' l = occupantsOf t l) (gaps : t'.gaps = t.gaps) :
    Promoted s t' h l where
  list := occ.trans p.list
  self := (recs h).trans p.self
  aboard g gh a := (recs g).trans (p.aboard g gh a)
  elsewhere g gh n := (recs g).trans (p.elsewhere g gh n)
  eta g gh := by rw [recs]; exact p.eta g gh
  packed nd := by
    have aft : ∀ o, aftOf t' o = aftOf t o := fun o => aftOf_congr fun g _ => by rw [recs]
    rw [aft, packedBehind_congr gaps _ _ fun g _ => by rw [recs]]
    exact p.packed nd
  stays nd g gh := by rw [recs]; exact p.stays nd g gh
  moves nd g gh := by rw [recs]; exact p.moves nd g gh

theorem tallyCommit_promoted {s : State} (m : Mark) {l : Lane} {h : Handle} (e : (getRec s h).state = .reserved)
    (slot : (slotOf s l).isSome = true) : Promoted s (tallyCommit s m l h).st h l := by
  have off : isAboard { s with reservations := s.reservations.filter (· != h) } h = false := by
    have same : isAboard { s with reservations := s.reservations.filter (· != h) } h = isAboard s h := rfl
    rw [same]; unfold isAboard; rw [e]; rfl
  have p : Promoted s (promote { s with reservations := s.reservations.filter (· != h) } h l) h l :=
    { promote_promoted off slot with }
  exact p.of_same (getRec_judge _ _ _ _ _) (occupantsOf_judge ..) (judge_gaps ..)

/-! ## Holding sections (Table 7.2) -/

theorem sectionHolds_iff (e : SectionEntry) (l : Lane) : sectionHolds e l = true ↔
    (l ∈ e.hoist ∧ e.state ≠ .deployed) ∨ (l ∈ e.covered ∧ e.state ≠ .stowed ∧ e.state ≠ .deployed) := by
  have moving : (e.state == .deploying || e.state == .stowing || e.state == .fault) = true
      ↔ e.state ≠ .stowed ∧ e.state ≠ .deployed := by
    cases e.state <;> decide
  unfold sectionHolds
  rw [Bool.or_eq_true, Bool.and_eq_true, Bool.and_eq_true, moving, List.contains_iff_mem, List.contains_iff_mem, bne_iff_ne]

theorem mem_holders {s : State} {l : Lane} {id : Nat} :
    id ∈ holders s l ↔ ∃ e, (id, e) ∈ s.sections ∧ sectionHolds e l = true := by
  unfold holders
  simp only [List.mem_map, List.mem_filter]
  exact ⟨fun ⟨x, ⟨mem, h⟩, e⟩ => ⟨x.2, e ▸ mem, h⟩, fun ⟨e, mem, h⟩ => ⟨(id, e), ⟨mem, h⟩, rfl⟩⟩

theorem holders_nil_iff {s : State} {l : Lane} : holders s l = [] ↔ ∀ x ∈ s.sections, ¬ sectionHolds x.2 l = true := by
  unfold holders
  rw [List.map_eq_nil_iff, List.filter_eq_nil_iff]

/-- The sections that hold a lane come in ascending order of their ids. -/
theorem holders_ascending {s : State} {l : Lane} (order : (s.sections.map Prod.fst).Pairwise (· < ·)) :
    (holders s l).Pairwise (· < ·) := order.sublist (List.filter_sublist.map _)

theorem holders_clause {s : State} {l : Lane} (order : (s.sections.map Prod.fst).Pairwise (· < ·)) {id : Nat} {rest : List Nat}
    (e : holders s l = id :: rest) : (∃ e, (id, e) ∈ s.sections ∧ sectionHolds e l = true)
      ∧ ∀ id' e', (id', e') ∈ s.sections → sectionHolds e' l = true → id ≤ id' := by
  refine ⟨mem_holders.1 (e ▸ List.mem_cons_self), fun id' e' mem h => ?_⟩
  have listed : id' ∈ holders s l := mem_holders.2 ⟨e', mem, h⟩
  have ascending := holders_ascending (l := l) order
  rw [e] at listed ascending
  rcases List.mem_cons.1 listed with rfl | behind
  · exact Nat.le_refl _
  · exact (List.rel_of_pairwise_cons ascending behind).le

/-! ## Moves and conversions -/

theorem postLimit_eq (s : State) (m : Mark) (l : Lane) (failed : List Check) : postLimit s m l failed =
    if failed = [] then s else post s .limit (some m) (some l) none (some (.checks failed)) := by
  unfold postLimit
  simp only [List.isEmpty_iff]

theorem recRank_of_desc {r : UnitRec} {u : UnitDesc} (d : r.desc = some u) : recRank r = u.rank := by
  unfold recRank; rw [d]; rfl

/-- Settles O28: the promotion by `Promoted`, the judgement by its three tests, the move and the conversion as they stand. -/
theorem commitPromotesAndIsJudged : Obligations.CommitPromotesAndIsJudged := by
  refine ⟨fun s m l h e slot => ?_, fun s m l rank ahead => ?_, fun s l order => ?_, fun s m l h u can desc => ?_⟩
  · have p := tallyCommit_promoted m e slot
    refine ⟨rfl, rfl, rfl, ?_, p.list, p.self, p.aboard, p.elsewhere, fun g gh => eta_of (p.eta g gh),
      fun nd => ⟨p.packed nd, p.stays nd, p.moves nd⟩, rfl⟩
    unfold tallyCommit recorded
    dsimp only
    rw [judge_only, promote_only]
  · rw [judge_eq]
    unfold postMoving
    rw [(sameFigures_postOrder s m l rank ahead).holders]
    cases ahead <;> cases holders s l <;> rfl
  · dsimp only
    simp only [← sectionHolds_iff]
    exact ⟨holders_nil_iff, fun id rest e => holders_clause order e⟩
  · have rank := recRank_of_desc desc
    unfold tallyMove tallyConvert recorded
    dsimp only
    rw [if_pos can, if_pos can, desc, rank, postLimit_eq]
    exact ⟨rfl, rfl⟩

end Sys2Proof.Machine

namespace Sys2Proof.Machine

/-! # Encodings (O60)

The bytes of a description, a bid block, an exception record or a report entry are a list of fixed shape, so a window over
them is, by computation, the bytes of the one field that stands there; what is left to prove is the arithmetic of the field. -/

/-! ## Numbers -/

theorem beNat_append (l : List Byte) (b : Byte) : beNat (l ++ [b]) = 256 * beNat l + b.toNat := by
  unfold beNat
  rw [List.foldl_append, List.foldl_cons, List.foldl_nil, Nat.mul_comm]

theorem beNat_singleton (b : Byte) : beNat [b] = b.toNat := by
  unfold beNat; rw [List.foldl_cons, List.foldl_nil]; omega

/-- A byte made of a number below 256 carries it. -/
theorem beNat_byte {n : Nat} (h : n < 256) : beNat [BitVec.ofNat 8 n] = n := by
  rw [beNat_singleton, BitVec.toNat_ofNat, Nat.mod_eq_of_lt h]

/-- A bit vector's number stands whole in its bytes. -/
theorem beNat_beBytes_toNat {k : Nat} (x : BitVec (8 * k)) : beNat (beBytes k x.toNat) = x.toNat := by
  refine beNat_beBytes ?_
  have := x.isLt
  rwa [Nat.pow_mul] at this

theorem bitOf_le (b : Bool) : bitOf b ≤ 1 := by cases b <;> decide

theorem bitOf_eq_one {b : Bool} : bitOf b = 1 ↔ b = true := by cases b <;> decide

/-! ## Unit descriptions (Tables 11.3, 11.4) -/

/-- The first byte of a long form. -/
def longHead (k : BitVec 3) (r : Bool) (n : BitVec 3) : Nat := 128 + 16 * k.toNat + 8 * bitOf r + n.toNat

theorem longHead_lt (k : BitVec 3) (r : Bool) (n : BitVec 3) : longHead k r n < 256 := by
  have := k.isLt; have := n.isLt; have := bitOf_le r
  unfold longHead; omega

theorem longHead_fields (k : BitVec 3) (r : Bool) (n : BitVec 3) :
    longHead k r n / 128 = 1 ∧ longHead k r n / 16 % 8 = k.toNat ∧ longHead k r n / 8 % 2 = bitOf r
      ∧ longHead k r n % 8 = n.toNat := by
  have := k.isLt; have := n.isLt; have := bitOf_le r
  unfold longHead; omega

/-- The first byte of a short form. -/
def shortHead (k n : BitVec 3) : Nat := 16 * k.toNat + n.toNat

theorem shortHead_lt (k n : BitVec 3) : shortHead k n < 128 := by
  have := k.isLt; have := n.isLt
  unfold shortHead; omega

theorem shortHead_fields (k n : BitVec 3) :
    shortHead k n / 128 = 0 ∧ shortHead k n / 16 % 8 = k.toNat ∧ shortHead k n / 8 % 2 = 0 ∧ shortHead k n % 8 = n.toNat := by
  have := k.isLt; have := n.isLt
  unfold shortHead; omega

theorem ofNat_eq_of_mod {w n : Nat} {x : BitVec w} (h : n % 2 ^ w = x.toNat) : BitVec.ofNat w n = x :=
  BitVec.eq_of_toNat_eq (by rw [BitVec.toNat_ofNat, h])

theorem descOfBytes_long (k : BitVec 3) (r : Bool) (n : BitVec 3) (m : Mark) (l : Byte) (w h : BitVec 16) (z : Byte) :
    descOfBytes (descBytes (.long k r n m l w h z)) = some (.long k r n m l w h z) := by
  have head : (BitVec.ofNat 8 (longHead k r n)).toNat = longHead k r n := Nat.mod_eq_of_lt (longHead_lt k r n)
  obtain ⟨form, kind, reefer, rank⟩ := longHead_fields k r n
  have read : descOfBytes (descBytes (.long k r n m l w h z))
      = if 128 ≤ (BitVec.ofNat 8 (longHead k r n)).toNat then
          some (.long (BitVec.ofNat 3 ((BitVec.ofNat 8 (longHead k r n)).toNat / 16))
            (decide ((BitVec.ofNat 8 (longHead k r n)).toNat / 8 % 2 = 1))
            (BitVec.ofNat 3 (BitVec.ofNat 8 (longHead k r n)).toNat) (BitVec.ofNat 40 (beNat (beBytes 5 m.toNat))) l
            (BitVec.ofNat 16 (beNat (beBytes 2 w.toNat))) (BitVec.ofNat 16 (beNat (beBytes 2 h.toNat))) z)
        else none := rfl
  have mark : beNat (beBytes 5 m.toNat) = m.toNat := beNat_beBytes_toNat (k := 5) m
  have mass : beNat (beBytes 2 w.toNat) = w.toNat := beNat_beBytes_toNat (k := 2) w
  have height : beNat (beBytes 2 h.toNat) = h.toNat := beNat_beBytes_toNat (k := 2) h
  rw [read, head, if_pos (by omega), mark, mass, height, reefer, ofNat_eq_of_mod kind, ofNat_eq_of_mod rank]
  simp only [BitVec.ofNat_toNat, BitVec.setWidth_eq, bitOf_eq_one, Bool.decide_eq_true]

theorem descOfBytes_short (k n : BitVec 3) (m : Mark) (l w : BitVec 6) (h : BitVec 3) :
    descOfBytes (descBytes (.short k n m l w h)) = some (.short k n m l w h) := by
  have low := shortHead_lt k n
  have head : (BitVec.ofNat 8 (shortHead k n)).toNat = shortHead k n := Nat.mod_eq_of_lt (by omega)
  obtain ⟨form, kind, reefer, rank⟩ := shortHead_fields k n
  have read : descOfBytes (descBytes (.short k n m l w h))
      = if 128 ≤ (BitVec.ofNat 8 (shortHead k n)).toNat then none
        else
          some (.short (BitVec.ofNat 3 ((BitVec.ofNat 8 (shortHead k n)).toNat / 16))
            (BitVec.ofNat 3 (BitVec.ofNat 8 (shortHead k n)).toNat) (BitVec.ofNat 40 (beNat (beBytes 5 m.toNat)))
            (BitVec.ofNat 6 ((BitVec.ofNat 8 (4 * l.toNat)).toNat / 4)) (BitVec.ofNat 6 ((BitVec.ofNat 8 (4 * w.toNat)).toNat / 4))
            (BitVec.ofNat 3 (BitVec.ofNat 8 h.toNat).toNat)) := rfl
  have mark : beNat (beBytes 5 m.toNat) = m.toNat := beNat_beBytes_toNat (k := 5) m
  have code : ∀ x : BitVec 6, BitVec.ofNat 6 ((BitVec.ofNat 8 (4 * x.toNat)).toNat / 4) = x := fun x =>
    ofNat_eq_of_mod (by have := x.isLt; rw [BitVec.toNat_ofNat]; omega)
  have height : BitVec.ofNat 3 (BitVec.ofNat 8 h.toNat).toNat = h :=
    ofNat_eq_of_mod (by have := h.isLt; rw [BitVec.toNat_ofNat]; omega)
  rw [read, head, if_neg (by omega), mark, code, code, height, ofNat_eq_of_mod kind, ofNat_eq_of_mod rank]
  simp only [BitVec.ofNat_toNat, BitVec.setWidth_eq]

theorem descOfBytes_descBytes (d : Desc) : descOfBytes (descBytes d) = some d := by
  cases d with
  | long k r n m l w h z => exact descOfBytes_long k r n m l w h z
  | short k n m l w h => exact descOfBytes_short k n m l w h

theorem descBytes_size (d : Desc) : (descBytes d).length = if descIsLong d then 12 else 9 := by
  cases d <;> rfl

/-- Where each field of a long form stands (Table 11.3). -/
theorem descBytes_long_fields (k : BitVec 3) (r : Bool) (n : BitVec 3) (m : Mark) (l : Byte) (w h : BitVec 16) (z : Byte) :
    let word := fun (i j : Nat) => beNat (((descBytes (.long k r n m l w h z)).drop i).take j)
    word 0 1 / 128 = 1 ∧ word 0 1 / 16 % 8 = k.toNat ∧ (word 0 1 / 8 % 2 = 1 ↔ r = true) ∧ word 0 1 % 8 = n.toNat
      ∧ word 1 5 = m.toNat ∧ word 6 1 = l.toNat ∧ word 7 2 = w.toNat ∧ word 9 2 = h.toNat ∧ word 11 1 = z.toNat := by
  intro word
  have head : word 0 1 = longHead k r n := beNat_byte (longHead_lt k r n)
  obtain ⟨form, kind, reefer, rank⟩ := longHead_fields k r n
  rw [head]
  exact ⟨form, kind, reefer ▸ bitOf_eq_one, rank, beNat_beBytes_toNat (k := 5) m, beNat_singleton l,
    beNat_beBytes_toNat (k := 2) w, beNat_beBytes_toNat (k := 2) h, beNat_singleton z⟩

/-- Where each field of a short form stands (Table 11.4). -/
theorem descBytes_short_fields (k n : BitVec 3) (m : Mark) (l w : BitVec 6) (h : BitVec 3) :
    let word := fun (i j : Nat) => beNat (((descBytes (.short k n m l w h)).drop i).take j)
    word 0 1 / 128 = 0 ∧ word 0 1 / 16 % 8 = k.toNat ∧ word 0 1 / 8 % 2 = 0 ∧ word 0 1 % 8 = n.toNat
      ∧ word 1 5 = m.toNat ∧ word 6 1 = 4 * l.toNat ∧ word 7 1 = 4 * w.toNat ∧ word 8 1 = h.toNat := by
  intro word
  have head : word 0 1 = shortHead k n := beNat_byte ((shortHead_lt k n).trans (by decide))
  obtain ⟨form, kind, reefer, rank⟩ := shortHead_fields k n
  have := l.isLt; have := w.isLt; have := h.isLt
  rw [head]
  exact ⟨form, kind, reefer, rank, beNat_beBytes_toNat (k := 5) m, beNat_byte (by omega), beNat_byte (by omega),
    beNat_byte (by omega)⟩

/-! ## Bid blocks (Table 11.5) -/

theorem bidBytes_size (b : BidBlock) : (bidBytes b).length = 6 := by cases b <;> rfl

theorem holderCode_le (st : Option HolderState) : holderCode st ≤ 3 := by
  cases st with
  | none => decide
  | some h => cases h <;> decide

theorem holderOfCode_holderCode (st : Option HolderState) : holderOfCode (holderCode st) = st := by
  cases st with
  | none => rfl
  | some h => cases h <;> rfl

/-- The first byte of a bid block: status, position and duplicate state. -/
theorem bidHead_fields (status : Nat) (p : Pos) (code : Nat) (hs : status ≤ 3) (hc : code ≤ 3) :
    64 * status + 16 * p.toNat + 4 * code < 256 ∧ (64 * status + 16 * p.toNat + 4 * code) / 64 = status
      ∧ (64 * status + 16 * p.toNat + 4 * code) / 16 % 4 = p.toNat ∧ (64 * status + 16 * p.toNat + 4 * code) / 4 % 4 = code
      ∧ (64 * status + 16 * p.toNat + 4 * code) % 4 = 0 := by
  have := p.isLt; omega

theorem bidOfBytes_status_one {b0 s0 s1 l o0 o1 : Byte} (h : b0.toNat / 64 = 1) :
    bidOfBytes [b0, s0, s1, l, o0, o1]
      = some (.bid (beNat [s0, s1]) (BitVec.ofNat 2 (b0.toNat / 16)) l.toNat (beNat [o0, o1])) := by
  simp only [bidOfBytes, h]

theorem bidOfBytes_status_two {b0 s0 s1 l o0 o1 : Byte} (h : b0.toNat / 64 = 2) :
    bidOfBytes [b0, s0, s1, l, o0, o1]
      = some (.duplicate (BitVec.ofNat 2 (b0.toNat / 16)) l.toNat (beNat [o0, o1]) (holderOfCode (b0.toNat / 4 % 4))) := by
  simp only [bidOfBytes, h]

/-- The first byte of a bid block of status and code within their bits carries its number. -/
theorem bidHead_toNat (status : Nat) (p : Pos) (code : Nat) (hs : status ≤ 3) (hc : code ≤ 3) :
    (BitVec.ofNat 8 (64 * status + 16 * p.toNat + 4 * code)).toNat = 64 * status + 16 * p.toNat + 4 * code :=
  Nat.mod_eq_of_lt (bidHead_fields status p code hs hc).1

theorem laneByte_toNat {l : Lane} (h : l < 256) : (BitVec.ofNat 8 (l / 256 ^ 0)).toNat = l := by
  rw [pow_zero, Nat.div_one, BitVec.toNat_ofNat]; exact Nat.mod_eq_of_lt h

theorem offsetBytes_read {o : Nat} (h : o < 65536) : beNat (beBytes 2 (fitOffset 16 o)) = o := by
  rw [fitOffset_of_lt (bits := 16) h, beNat_beBytes (k := 2) h]

theorem bidOfBytes_bidBytes (b : BidBlock) (wf : b.wf = true) : bidOfBytes (bidBytes b) = some b := by
  cases b with
  | none => rfl
  | invalid => rfl
  | bid sc p l o =>
    simp only [BidBlock.wf, word16Wf, laneWf, Bool.and_eq_true, decide_eq_true_eq] at wf
    obtain ⟨⟨score, lane⟩, offset⟩ := wf
    obtain ⟨-, status, pos, -, -⟩ := bidHead_fields 1 p 0 (by decide) (by decide)
    have head : (BitVec.ofNat 8 (64 + 16 * p.toNat)).toNat = 64 * 1 + 16 * p.toNat + 4 * 0 :=
      bidHead_toNat 1 p 0 (by decide) (by decide)
    refine (bidOfBytes_status_one (by rw [head, status])).trans ?_
    have fields : beNat (beBytes 2 sc) = sc := beNat_beBytes (k := 2) score
    rw [head, laneByte_toNat lane, ofNat_eq_of_mod (x := p) pos]
    exact congrArg some (congr_arg₂ (fun a b => BidBlock.bid a p l b) fields (offsetBytes_read offset))
  | duplicate p l o st =>
    simp only [BidBlock.wf, word16Wf, laneWf, Bool.and_eq_true, decide_eq_true_eq] at wf
    obtain ⟨lane, offset⟩ := wf
    obtain ⟨-, status, pos, code, -⟩ := bidHead_fields 2 p (holderCode st) (by decide) (holderCode_le st)
    have head : (BitVec.ofNat 8 (128 + 16 * p.toNat + 4 * holderCode st)).toNat = 64 * 2 + 16 * p.toNat + 4 * holderCode st :=
      bidHead_toNat 2 p _ (by decide) (holderCode_le st)
    refine (bidOfBytes_status_two (by rw [head, status])).trans ?_
    rw [head, laneByte_toNat lane, ofNat_eq_of_mod (x := p) pos, code, holderOfCode_holderCode]
    exact congrArg (fun b => some (BidBlock.duplicate p l b st)) (offsetBytes_read offset)

/-- Where each field of a bid stands. -/
theorem bidBytes_bid_fields {sc l : Nat} (p : Pos) (o : Nat) (score : sc < 65536) (lane : l < 256) :
    let word := fun (i j : Nat) => beNat (((bidBytes (.bid sc p l o)).drop i).take j)
    word 0 1 / 64 = 1 ∧ word 0 1 / 16 % 4 = p.toNat ∧ word 0 1 % 16 = 0 ∧ word 1 2 = sc ∧ word 3 1 = l
      ∧ (o < 65536 → word 4 2 = o) := by
  intro word
  obtain ⟨-, status, pos, -, -⟩ := bidHead_fields 1 p 0 (by decide) (by decide)
  have head : word 0 1 = 64 * 1 + 16 * p.toNat + 4 * 0 :=
    (beNat_singleton _).trans (bidHead_toNat 1 p 0 (by decide) (by decide))
  rw [head]
  exact ⟨status, pos, by omega, beNat_beBytes (k := 2) score, (beNat_singleton _).trans (laneByte_toNat lane), offsetBytes_read⟩

/-- The duplicate states in the order of their codes. -/
def holderStates : List (Option HolderState) := [none, some .offered, some .reserved, some .aboard]

theorem holderStates_code (st : Option HolderState) : holderStates[holderCode st]? = some st := by
  cases st with
  | none => rfl
  | some h => cases h <;> rfl

/-- Where each field of a DUPLICATE stands. -/
theorem bidBytes_duplicate_fields {l : Nat} (p : Pos) (o : Nat) (st : Option HolderState) (lane : l < 256) :
    let word := fun (i j : Nat) => beNat (((bidBytes (.duplicate p l o st)).drop i).take j)
    word 0 1 / 64 = 2 ∧ word 0 1 / 16 % 4 = p.toNat ∧ holderStates[word 0 1 / 4 % 4]? = some st ∧ word 0 1 % 4 = 0
      ∧ word 1 2 = 0 ∧ word 3 1 = l ∧ (o < 65536 → word 4 2 = o) := by
  intro word
  obtain ⟨-, status, pos, code, low⟩ := bidHead_fields 2 p (holderCode st) (by decide) (holderCode_le st)
  have head : word 0 1 = 64 * 2 + 16 * p.toNat + 4 * holderCode st :=
    (beNat_singleton _).trans (bidHead_toNat 2 p _ (by decide) (holderCode_le st))
  rw [head]
  exact ⟨status, pos, by rw [code]; exact holderStates_code st, low, beNat_beBytes (k := 2) (by decide),
    (beNat_singleton _).trans (laneByte_toNat lane), offsetBytes_read⟩

/-! ## Frames (R182, R184) -/

theorem filledBody_size {body : List Byte} (h : body.length ≤ 67) :
    3 ≤ (filledBody body).length ∧ (filledBody body).length ≤ 67 := by
  unfold filledBody fillerBytes
  rw [List.length_append, List.length_map, List.length_range]
  omega

/-- The length byte of a frame: delimiter, type, length and check beside the body. -/
theorem lengthByte {body : List Byte} (h : body.length ≤ 67) :
    (BitVec.ofNat 8 (5 + (filledBody body).length)).toNat = 5 + (filledBody body).length := by
  have := filledBody_size h
  rw [BitVec.toNat_ofNat]; omega

theorem frameBytes_size {body : List Byte} (type : Byte) (h : body.length ≤ 67) :
    8 ≤ (frameBytes type body).length ∧ (frameBytes type body).length ≤ 72 := by
  have := filledBody_size h
  simp only [frameBytes, List.length_cons, List.length_append, beBytes_size]
  omega

theorem dropWhile_junk {junk rest : List Byte} (h : ∀ b ∈ junk, b ≠ 0x7E#8) :
    (junk ++ 0x7E#8 :: rest).dropWhile (fun b => b != 0x7E#8) = 0x7E#8 :: rest := by
  rw [List.dropWhile_append_of_pos fun b hb => bne_iff_ne.2 (h b hb), List.dropWhile_cons_of_neg (by decide)]

theorem testFrame_frameBytes {body : List Byte} (type : Byte) (h : body.length ≤ 67) :
    testFrame (frameBytes type body) = .passes := by
  have size := filledBody_size h
  have len := lengthByte h
  simp only [frameBytes, testFrame, List.cons_append, len]
  have body : 5 + (filledBody body).length - 5 = (filledBody body).length := by omega
  rw [if_neg (by omega), if_neg (by rw [List.length_append, beBytes_size]; omega), body, List.drop_left, List.take_left,
    List.take_of_length_le (by rw [beBytes_size])]
  exact if_pos (beNat_beBytes_toNat (k := 2) _)

theorem testArrival_frameBytes {body junk : List Byte} (type : Byte) (h : body.length ≤ 67) (hj : ∀ b ∈ junk, b ≠ 0x7E#8) :
    testArrival (junk ++ frameBytes type body) = .passes := by
  unfold testArrival
  rw [show frameBytes type body = 0x7E#8 :: _ from rfl, dropWhile_junk hj]
  exact testFrame_frameBytes type h

theorem frameBody_size (f : Frame) : (frameBody f).length ≤ 67 := List.length_take_le _ _

end Sys2Proof.Machine

namespace Sys2Proof.Machine

/-! ## Bodies (R182, R187)

The parts of a body stand in an order that the manual leaves open: whatever it is, they are the same parts, so a body's length
and what stands in it do not depend on it. -/

theorem putField_perm (x : Nat × List Byte) (t : List (Nat × List Byte)) : (putField x t).Perm (x :: t) := by
  induction t with
  | nil => exact .refl _
  | cons y t ih =>
    unfold putField
    split
    · exact .refl _
    · exact (ih.cons y).trans (.swap x y t)

theorem foldr_putField_perm (l : List (Nat × List Byte)) : (l.foldr putField []).Perm l := by
  induction l with
  | nil => exact .refl _
  | cons x l ih => exact (putField_perm x _).trans (ih.cons x)

/-- The parts of a body, its named values, flags and sets ahead of the others. -/
def bodyParts (f : Frame) : List (List Byte) := otherBytes f :: (bodyFields f).mapIdx (partBytes f)

/-- What stands behind the head of a body. -/
def bodyTail (f : Frame) : List Byte := (placedFields f).flatMap Prod.snd

/-- The placed parts are the parts, in some order. -/
theorem placedFields_perm (f : Frame) : ((placedFields f).map Prod.snd).Perm (bodyParts f) := by
  have numbered : ((bodyParts f).mapIdx fun i l => (Config.fieldPlace f i, l)).map Prod.snd = bodyParts f :=
    List.ext_getElem (by simp) (by simp)
  exact ((foldr_putField_perm _).map Prod.snd).trans (numbered ▸ .refl _)

theorem bodyTail_eq (f : Frame) : bodyTail f = ((placedFields f).map Prod.snd).flatten := List.flatMap_def

theorem bodyTail_size (f : Frame) : (bodyTail f).length = ((bodyParts f).map List.length).sum := by
  rw [bodyTail_eq, List.length_flatten]
  exact ((placedFields_perm f).map _).sum_eq

/-- Every part stands whole behind the head. -/
theorem part_mem_bodyTail {f : Frame} {l : List Byte} (h : l ∈ bodyParts f) : l <:+: bodyTail f := by
  obtain ⟨a, c, e⟩ := List.append_of_mem ((placedFields_perm f).mem_iff.2 h)
  rw [bodyTail_eq, e, List.flatten_append, List.flatten_cons, ← List.append_assoc]
  exact ⟨_, _, rfl⟩

/-- A body of no parts but its named values, flags and sets. -/
theorem bodyTail_nil {f : Frame} (h : bodyFields f = []) : bodyTail f = otherBytes f := by
  have parts : bodyParts f = [otherBytes f] := by unfold bodyParts; rw [h]; rfl
  have perm := placedFields_perm f
  rw [parts, List.perm_singleton] at perm
  rw [bodyTail_eq, perm, List.flatten_singleton]

/-- A body of one part beside its named values, flags and sets. -/
theorem bodyTail_single {f : Frame} {p : List Field} (h : bodyFields f = [p]) :
    bodyTail f = otherBytes f ++ partBytes f 0 p ∨ bodyTail f = partBytes f 0 p ++ otherBytes f := by
  have parts : bodyParts f = [otherBytes f, partBytes f 0 p] := by unfold bodyParts; rw [h]; rfl
  have perm := placedFields_perm f
  rw [parts, List.perm_pair] at perm
  rw [bodyTail_eq]
  exact perm.imp (fun e => by rw [e]; simp) fun e => by rw [e]; simp

/-- A body of one part and nothing else. -/
theorem bodyTail_alone {f : Frame} {p : List Field} (h : bodyFields f = [p]) (none : hasOthers f = false) :
    bodyTail f = partBytes f 0 p := by
  have e := bodyTail_single h
  rw [otherBytes_nil none, List.nil_append, List.append_nil, or_self] at e
  exact e

/-- A body that the manual does not print whole, within a frame. -/
theorem frameBody_eq {f : Frame} (whole : wholeBody f = bodyHead f ++ bodyTail f)
    (size : (bodyHead f).length + (bodyTail f).length ≤ 67) : frameBody f = bodyHead f ++ bodyTail f := by
  unfold frameBody
  rw [whole, List.take_of_length_le (by rw [List.length_append]; exact size)]

theorem part_mem_frameBody {f : Frame} {l : List Byte} (whole : wholeBody f = bodyHead f ++ bodyTail f)
    (size : (bodyHead f).length + (bodyTail f).length ≤ 67) (h : l ∈ bodyParts f) : l <:+: frameBody f := by
  rw [frameBody_eq whole size]
  exact (part_mem_bodyTail h).trans (List.suffix_append ..).isInfix

/-! ### Sizes of fields -/

theorem descBytes_size_le (d : Desc) : (descBytes d).length ≤ 12 := by rw [descBytes_size]; split <;> decide

/-- The width in which a number of open width stands. -/
def numberWidth (width n : Nat) : Nat := min 4 (max (bytesNeeded n) width)

theorem numberBytes_eq (width n : Nat) : numberBytes width n = beBytes (numberWidth width n) n := rfl

theorem numberWidth_bounds (width n : Nat) : 1 ≤ numberWidth width n ∧ numberWidth width n ≤ 4 := by
  have := bytesNeeded_bounds n
  unfold numberWidth; omega

/-- A number of 32 bits is given back by the bytes it stands in. -/
theorem beNat_numberBytes {width n : Nat} (h : n < 2 ^ 32) : beNat (beBytes (numberWidth width n) n) = n := by
  refine beNat_beBytes ((bytesNeeded_holds h).trans_le (Nat.pow_le_pow_right (by decide) ?_))
  have := bytesNeeded_bounds n
  unfold numberWidth; omega

theorem numberBytes_le (width n : Nat) : (numberBytes width n).length ≤ 4 := (numberBytes_size width n).2

/-! ### The bodies of O60 -/

theorem checkIn_size (c : CheckIn) : (bodyHead (.checkIn c)).length + (bodyTail (.checkIn c)).length ≤ 67 := by
  have desc := descBytes_size_le c.desc
  have others := otherBytes_size (.checkIn c)
  have count := numberBytes_le (Config.fieldWidth (.checkIn c) 2 0) c.retry.count
  rw [bodyTail_size]
  simp only [bodyHead, bodyParts, bodyFields, Field.each, Field.desc, Field.sequence, Field.tick, fieldBytes, List.map_cons,
    List.map_nil, List.mapIdx_cons, List.mapIdx_nil, partBytes_single, List.sum_cons, List.sum_nil, List.length_nil,
    beBytes_size, bidBytes_size, Nat.zero_add, Nat.reduceAdd]
  omega

theorem desc_in_checkIn (c : CheckIn) : descBytes c.desc <:+: frameBody (.checkIn c) :=
  part_mem_frameBody rfl (checkIn_size c) (by
    simp [bodyParts, bodyFields, Field.each, Field.desc, fieldBytes])

theorem bid_in_checkIn (c : CheckIn) : bidBytes c.bid <:+: frameBody (.checkIn c) :=
  part_mem_frameBody rfl (checkIn_size c) (by
    simp [bodyParts, bodyFields, Field.each, fieldBytes])

theorem confirm_size (c : Confirm) : (bodyHead (.confirm c)).length + (bodyTail (.confirm c)).length ≤ 67 := by
  have desc := descBytes_size_le c.desc
  have others := otherBytes_size (.confirm c)
  have count := numberBytes_le (Config.fieldWidth (.confirm c) 2 0) c.retry.count
  rw [bodyTail_size]
  simp only [bodyHead, bodyParts, bodyFields, Field.each, Field.desc, Field.sequence, Field.tick, fieldBytes, List.map_cons,
    List.mapIdx_cons, partBytes_single, List.sum_cons, List.length_nil, beBytes_size, Nat.zero_add, Nat.reduceAdd]
  suffices result : ((List.map List.length (List.mapIdx (fun i => partBytes (.confirm c) (i + 1 + 1 + 1 + 1))
      ((resultFields c.result).map fun x => [x])))).sum ≤ 9 by omega
  cases c.result with
  | winner pos l offset =>
    have a := numberBytes_le (Config.fieldWidth (.confirm c) 4 0) pos.toNat
    have b := numberBytes_le (Config.fieldWidth (.confirm c) 6 0) offset
    simp only [resultFields, Field.lane, fieldBytes, List.map_cons, List.map_nil, List.mapIdx_cons, List.mapIdx_nil,
      partBytes_single, List.sum_cons, List.sum_nil, beBytes_size, Nat.zero_add, Nat.reduceAdd]
    omega
  | none r => exact Nat.zero_le _
  | duplicate pos l st =>
    have a := numberBytes_le (Config.fieldWidth (.confirm c) 4 0) pos.toNat
    simp only [resultFields, Field.lane, fieldBytes, List.map_cons, List.map_nil, List.mapIdx_cons, List.mapIdx_nil,
      partBytes_single, List.sum_cons, List.sum_nil, beBytes_size, Nat.zero_add, Nat.reduceAdd]
    omega
  | invalid => exact Nat.zero_le _

theorem desc_in_confirm (c : Confirm) : descBytes c.desc <:+: frameBody (.confirm c) :=
  part_mem_frameBody rfl (confirm_size c) (by
    simp [bodyParts, bodyFields, Field.each, Field.desc, fieldBytes])

theorem desc_in_tallyOn (m : Mark) (l : Lane) (d : Desc) (placed : Bool) :
    descBytes d <:+: frameBody (.tallyOn m l (some d) placed) := by
  refine part_mem_frameBody rfl ?_ (by simp [bodyParts, bodyFields, Field.each, Field.ofOption, Field.desc, fieldBytes])
  have desc := descBytes_size_le d
  have others := otherBytes_size (.tallyOn m l (some d) placed)
  rw [bodyTail_size]
  simp only [bodyHead, bodyParts, bodyFields, Field.each, Field.desc, Field.mark, Field.lane, Field.ofOption, fieldBytes,
    Option.map_some, Option.toList_some, List.map_cons, List.map_nil, List.mapIdx_cons, List.mapIdx_nil, partBytes_single,
    List.sum_cons, List.sum_nil, List.length_nil, beBytes_size, Nat.zero_add]
  omega

theorem desc_in_profileDefault (tag : Byte) (pos : Pos) (code : ReplyCode) (d : Desc) :
    descBytes d <:+: frameBody (.reply tag pos code (.profileDefault d)) := by
  have tail : bodyTail (.reply tag pos code (.profileDefault d)) = descBytes d :=
    (bodyTail_alone rfl rfl).trans (partBytes_single ..)
  refine part_mem_frameBody rfl ?_ (by simp [bodyParts, bodyFields, replyFields, Field.desc, fieldBytes])
  rw [tail]
  exact Nat.add_le_add_left ((descBytes_size_le d).trans (by decide : 12 ≤ 64)) 3

theorem writeRange_size (q : ReqHead) (base count : Nat) :
    (bodyHead (.request q (.writeRange base count))).length + (bodyTail (.request q (.writeRange base count))).length ≤ 67 := by
  have number := numberBytes_le (Config.fieldWidth (.request q (.writeRange base count)) 1 0) (count - 1)
  have others := otherBytes_size (.request q (.writeRange base count))
  rw [bodyTail_size]
  simp only [bodyHead, bodyParts, bodyFields, requestFields, Field.each, Field.lane, fieldBytes, List.map_cons, List.map_nil,
    List.mapIdx_cons, List.mapIdx_nil, partBytes_single, List.sum_cons, List.sum_nil, List.length_cons, List.length_nil,
    beBytes_size, Nat.zero_add]
  omega

theorem ident_size (pos : Pos) (role : Role) (serial : BitVec 32) (base count : Nat) (v : Voyage) :
    (bodyHead (.ident pos role serial base count v)).length + (bodyTail (.ident pos role serial base count v)).length ≤ 67 := by
  have a := numberBytes_le (Config.fieldWidth (.ident pos role serial base count v) 0 0) pos.toNat
  have b := numberBytes_le (Config.fieldWidth (.ident pos role serial base count v) 3 0) count
  have others := otherBytes_size (.ident pos role serial base count v)
  rw [bodyTail_size]
  simp only [bodyHead, bodyParts, bodyFields, Field.each, Field.lane, fieldBytes, List.map_cons, List.map_nil,
    List.mapIdx_cons, List.mapIdx_nil, partBytes_single, List.sum_cons, List.sum_nil, List.length_nil,
    beBytes_size, Nat.zero_add, Nat.reduceAdd]
  omega

/-- The first three bytes of a body are its head (R187). -/
theorem take_frameBody {f : Frame} {rest : List Byte} (h : wholeBody f = bodyHead f ++ rest) (three : (bodyHead f).length = 3) :
    (frameBody f).take 3 = bodyHead f := by
  unfold frameBody
  rw [h, List.take_take, show min 3 Config.bodyCapacity = 3 from rfl, ← three, List.take_left]

theorem wholeBody_request (q : ReqHead) {b : ReqBody} (h : ∀ k l, b ≠ .malformed k l) :
    wholeBody (.request q b) = bodyHead (.request q b) ++ bodyTail (.request q b) := by
  cases b with
  | malformed k l => exact absurd rfl (h k l)
  | _ => rfl

theorem wholeBody_reply (tag : Byte) (pos : Pos) (code : ReplyCode) (b : ReplyBody) :
    ∃ rest, wholeBody (.reply tag pos code b) = bodyHead (.reply tag pos code b) ++ rest := by
  cases b <;> exact ⟨_, rfl⟩

/-- A request without a field carries its head alone. -/
theorem frameBody_bare {q : ReqHead} {b : ReqBody} (whole : ∀ k l, b ≠ .malformed k l) (fields : requestFields b = [])
    (none : requestHasOthers b = false) : frameBody (.request q b) = bodyHead (.request q b) := by
  have tail : bodyTail (.request q b) = [] := (bodyTail_nil (f := .request q b) fields).trans (otherBytes_nil none)
  have size : (bodyHead (.request q b)).length + (bodyTail (.request q b)).length ≤ 67 := by
    rw [tail]; exact Nat.le_of_ble_eq_true rfl
  rw [frameBody_eq (wholeBody_request q whole) size, tail, List.append_nil]

/-- A fast order without a body carries none (R153, R159). -/
theorem frameBody_order {f : Frame} (whole : wholeBody f = bodyTail f) (fields : bodyFields f = [])
    (none : hasOthers f = false) : frameBody f = [] := by
  unfold frameBody
  rw [whole, bodyTail_nil fields, otherBytes_nil none]; rfl

theorem codeOfSeg_eq (c : SegCode) : codeOfSeg c = [SegCode.none, .notNeighbour, .notSameLane, .laneApart, .deckApart].idxOf c := by
  cases c <;> rfl

theorem middle_of_take {a b c : List Byte} {n : Nat} (h : a.length + b.length ≤ n) : b <:+: (a ++ (b ++ c)).take n := by
  rw [← List.append_assoc, List.take_append, List.take_of_length_le (by rw [List.length_append]; exact h)]
  exact ⟨_, _, rfl⟩

/-- The range of a SUMMARY: base, and its count as it is (R3, R20). -/
theorem range_in_summary (tag : Byte) (pos : Pos) (code : ReplyCode) (base count defined : Nat) (decks sections : List Nat) :
    let f : Frame := .reply tag pos code (.profileSummary base count defined decks sections)
    beBytes 1 base ++ beBytes (numberWidth (Config.fieldWidth f 0 1) count) count <:+: frameBody f := by
  intro f
  have others := otherBytes_size f
  have width := numberWidth_bounds (Config.fieldWidth f 0 1) count
  obtain ⟨rest, part⟩ : ∃ rest, partBytes f 0
      ([.lane base, .number count, .number defined] ++ decks.map .number ++ sections.map .number)
        = (beBytes 1 base ++ beBytes (numberWidth (Config.fieldWidth f 0 1) count) count) ++ rest := by
    unfold partBytes
    rw [List.cons_append, List.cons_append, List.cons_append, List.cons_append, List.mapIdx_cons, List.mapIdx_cons,
      List.flatten_cons, List.flatten_cons, ← List.append_assoc]
    exact ⟨_, rfl⟩
  have whole : frameBody f = (bodyHead f ++ bodyTail f).take 67 := rfl
  have head : (bodyHead f).length = 3 := rfl
  have size : (beBytes 1 base ++ beBytes (numberWidth (Config.fieldWidth f 0 1) count) count).length ≤ 5 := by
    rw [List.length_append, beBytes_size, beBytes_size]; omega
  rcases bodyTail_single (f := f) rfl with tail | tail
  · rw [whole, tail, part, ← List.append_assoc]
    exact middle_of_take (by rw [List.length_append]; omega)
  · rw [whole, tail, part, List.append_assoc]
    exact middle_of_take (by omega)

/-- The codes of a SEGREGATION reply, in class order, and nothing else (log 29). -/
theorem frameBody_segregation (tag : Byte) (pos : Pos) (code : ReplyCode) {codes : List SegCode} (h : codes.length ≤ 15) :
    let f : Frame := .reply tag pos code (.profileSegregation codes)
    frameBody f = bodyHead f ++ (codes.mapIdx fun j c => fieldBytes f 0 j (.number (codeOfSeg c))).flatten := by
  intro f
  have tail : bodyTail f = (codes.mapIdx fun j c => fieldBytes f 0 j (.number (codeOfSeg c))).flatten := by
    refine (bodyTail_alone (f := f) (p := codes.map fun c => .number (codeOfSeg c)) rfl rfl).trans ?_
    unfold partBytes
    exact congrArg List.flatten (List.ext_getElem (by simp) (by simp))
  have size : (codes.mapIdx fun j c => fieldBytes f 0 j (.number (codeOfSeg c))).flatten.length ≤ 4 * codes.length := by
    rw [List.length_flatten]
    refine (List.sum_le_card_nsmul _ 4 fun n hn => ?_).trans (by simp [Nat.mul_comm])
    obtain ⟨l, hl, rfl⟩ := List.mem_map.1 hn
    obtain ⟨i, hi, rfl⟩ := List.mem_mapIdx.1 hl
    exact numberBytes_le _ _
  have head : (bodyHead f).length = 3 := rfl
  rw [frameBody_eq (f := f) rfl (by rw [tail]; omega), tail]

/-- A NO_ENGINE reply carries the target alone (R189). -/
theorem frameBody_target (tag : Byte) (pos p : Pos) (code : ReplyCode) :
    let f : Frame := .reply tag pos code (.target p)
    frameBody f = bodyHead f ++ beBytes (numberWidth (Config.fieldWidth f 0 0) p.toNat) p.toNat := by
  intro f
  have tail : bodyTail f = beBytes (numberWidth (Config.fieldWidth f 0 0) p.toNat) p.toNat :=
    (bodyTail_alone rfl rfl).trans (partBytes_single ..)
  have width := numberWidth_bounds (Config.fieldWidth f 0 0) p.toNat
  have head : (bodyHead f).length = 3 := rfl
  rw [frameBody_eq (f := f) rfl (by rw [tail, beBytes_size]; omega), tail]

/-- A signed number that fits its bytes is given back (R182). -/
theorem signedOfBytes_signedBytes {k : Nat} {i : Int} (hk : 1 ≤ k) (low : -(2 ^ (8 * k - 1) : Int) ≤ i)
    (high : i < 2 ^ (8 * k - 1)) : signedOfBytes (signedBytes k i) = i := by
  unfold signedOfBytes
  rw [signedBytes_size]
  unfold signedBytes
  rw [beNat_beBytes_toNat, BitVec.ofNat_toNat, BitVec.setWidth_eq]
  exact BitVec.toInt_ofInt_eq_self (by omega) low high

end Sys2Proof.Machine

namespace Sys2Proof.Machine

/-! ## Exception records (Table 11.6) -/

/-- Some bytes carry what of a number fits them. -/
theorem beNat_beBytes_mod (k n : Nat) : beNat (beBytes k n) = n % 256 ^ k := by
  unfold beNat; rw [beNat_foldl, Nat.zero_mul, Nat.zero_add]

/-- A number whose bit n is the n-th of some truth values. -/
def bitsValue : List Bool → Nat
  | [] => 0
  | b :: t => bitOf b + 2 * bitsValue t

theorem bitsValue_lt (l : List Bool) : bitsValue l < 2 ^ l.length := by
  induction l with
  | nil => decide
  | cons b t ih =>
    have := bitOf_le b
    rw [bitsValue, List.length_cons, pow_succ]
    omega

theorem bitsValue_bit (l : List Bool) (n : Nat) : bitsValue l / 2 ^ n % 2 = 1 ↔ l[n]? = some true := by
  induction l generalizing n with
  | nil => rw [bitsValue, Nat.zero_div]; simp
  | cons b t ih =>
    have le := bitOf_le b
    cases n with
    | zero =>
      have low : (bitOf b + 2 * bitsValue t) / 2 ^ 0 % 2 = bitOf b := by rw [pow_zero]; omega
      rw [bitsValue, low, bitOf_eq_one, List.getElem?_cons_zero, Option.some.injEq]
    | succ n =>
      have high : (bitOf b + 2 * bitsValue t) / 2 = bitsValue t := by omega
      rw [bitsValue, pow_succ', ← Nat.div_div_eq_div_mul, high, List.getElem?_cons_succ, ih]

/-- The detail word of failed checks has bit n − 1 for check n. -/
theorem detailWord_checks (failed : List Check) : detailWord (.checks failed) = bitsValue (allChecks.map failed.contains) := by
  have bit : ∀ (b : Bool) (n : Nat), (if b = true then 2 ^ n else 0) = bitOf b * 2 ^ n := fun b n => by
    cases b <;> simp [bitOf]
  simp only [detailWord, bit, allChecks, List.map_cons, List.map_nil, List.sum_cons, List.sum_nil, checkNumber, bitsValue]
  omega

theorem detailWord_checks_lt (failed : List Check) : detailWord (.checks failed) < 32768 := by
  have lt := bitsValue_lt (allChecks.map failed.contains)
  rwa [List.length_map, ← detailWord_checks] at lt

theorem detailWord_checks_bit (failed : List Check) {n : Nat} {c : Check} (h : allChecks[n]? = some c) :
    detailWord (.checks failed) / 2 ^ n % 2 = 1 ↔ c ∈ failed := by
  rw [detailWord_checks, bitsValue_bit, List.getElem?_map, h, Option.map_some, Option.some.injEq, List.contains_iff_mem]

/-- The exception kinds in the order of their codes (Table 10.3). -/
def excKinds : List ExcKind :=
  [.order, .wrongLane, .forced, .limit, .restow, .exitOrder, .unknownExit, .unplaced, .unrecorded, .lateConfirm, .overcarried,
    .hoistTimeout, .hoistLate, .hoistUnpermitted, .hoistMoving, .tallyClosed]

theorem excKinds_code (k : ExcKind) : excCode k ≤ 15 ∧ excKinds[excCode k]? = some k := by
  cases k <;> exact ⟨by decide, rfl⟩

/-- The byte of an exception record's kind and of what it carries. -/
def excHead (code : Nat) (mark lane second detail : Bool) : Nat :=
  16 * code + 8 * bitOf mark + 4 * bitOf lane + 2 * bitOf second + bitOf detail

theorem excHead_fields {code : Nat} (h : code ≤ 15) (mark lane second detail : Bool) :
    excHead code mark lane second detail < 256 ∧ excHead code mark lane second detail / 16 = code
      ∧ excHead code mark lane second detail / 8 % 2 = bitOf mark ∧ excHead code mark lane second detail / 4 % 2 = bitOf lane
      ∧ excHead code mark lane second detail / 2 % 2 = bitOf second ∧ excHead code mark lane second detail % 2 = bitOf detail := by
  have := bitOf_le mark; have := bitOf_le lane; have := bitOf_le second; have := bitOf_le detail
  unfold excHead; omega

/-- A presence bit says that the field is there. -/
theorem bitOf_isSome {α : Type} (o : Option α) : bitOf o.isSome = 1 ↔ o ≠ none := by cases o <;> simp [bitOf]

/-- An optional mark of an exception record stands whole in its five bytes. -/
theorem beNat_markBytes (m : Option Mark) : beNat (beBytes 5 ((m.map BitVec.toNat).getD 0)) = (m.map BitVec.toNat).getD 0 := by
  cases m with
  | none => exact beNat_beBytes (k := 5) (by decide)
  | some m => exact beNat_beBytes_toNat (k := 5) m

theorem excBytes_size (r : ExcRecord) : (excBytes r).length = 20 := by
  simp only [excBytes, List.length_append, beBytes_size, List.length_singleton]

/-- The fields of an exception record but for its detail. -/
theorem excBytes_fields (r : ExcRecord) :
    let word := fun (i k : Nat) => beNat (((excBytes r).drop i).take k)
    word 0 2 = r.sequence.toNat ∧ word 2 4 = r.clock.toNat ∧ excKinds[word 6 1 / 16]? = some r.kind
      ∧ (word 6 1 / 8 % 2 = 1 ↔ r.mark ≠ none) ∧ (word 6 1 / 4 % 2 = 1 ↔ r.lane ≠ none)
      ∧ (word 6 1 / 2 % 2 = 1 ↔ r.second ≠ none) ∧ (word 6 1 % 2 = 1 ↔ r.detail ≠ none)
      ∧ word 7 5 = (r.mark.map BitVec.toNat).getD 0 ∧ word 12 1 = r.lane.getD 0 % 256
      ∧ word 13 5 = (r.second.map BitVec.toNat).getD 0 := by
  intro word
  obtain ⟨code, kind⟩ := excKinds_code r.kind
  obtain ⟨fits, type, mark, lane, second, detail⟩ :=
    excHead_fields code r.mark.isSome r.lane.isSome r.second.isSome r.detail.isSome
  have head : word 6 1 = excHead (excCode r.kind) r.mark.isSome r.lane.isSome r.second.isSome r.detail.isSome := beNat_byte fits
  have lanes : word 12 1 = r.lane.getD 0 % 256 := beNat_beBytes_mod 1 _
  rw [head, type, mark, lane, second, detail]
  exact ⟨beNat_beBytes_toNat (k := 2) r.sequence, beNat_beBytes_toNat (k := 4) r.clock, kind, bitOf_isSome _, bitOf_isSome _,
    bitOf_isSome _, bitOf_isSome _, beNat_markBytes _, lanes, beNat_markBytes _⟩

/-- The detail word of an exception record. -/
theorem excBytes_detail (r : ExcRecord) :
    beNat (((excBytes r).drop 18).take 2) = (r.detail.map detailWord).getD 0 % 65536 :=
  beNat_beBytes_mod 2 _

/-! ## Report entries (Table 11.7) -/

/-- The unit kinds and the states of an entry in the order of their codes. -/
def unitKinds : List UnitKind := [.car, .van, .truck, .artic, .trailer, .project]

def entryStates : List RecState := [.offered, .trial, .reserved, .aboard, .left]

theorem unitKinds_code (k : UnitKind) : (codeOfKind k).toNat ≤ 5 ∧ unitKinds[(codeOfKind k).toNat]? = some k := by
  cases k <;> exact ⟨by decide, rfl⟩

theorem entryStates_code {st : RecState} (h : st ≠ .free) :
    reportStateCode st ≤ 4 ∧ entryStates[reportStateCode st]? = some st := by
  cases st with
  | free => exact absurd rfl h
  | _ => exact ⟨by decide, rfl⟩

/-- The first byte of a report entry: kind, state and the two flags. -/
theorem entryHead_fields {kind state : Nat} (hk : kind ≤ 5) (hs : state ≤ 4) (forced defaulted : Bool) :
    let n := 32 * kind + 4 * state + 2 * bitOf forced + bitOf defaulted
    n < 256 ∧ n / 32 = kind ∧ n / 4 % 8 = state ∧ n / 2 % 2 = bitOf forced ∧ n % 2 = bitOf defaulted := by
  have := bitOf_le forced; have := bitOf_le defaulted
  omega

/-- The second byte of a report entry: rank, the high bits of the mass, and the position. -/
theorem entryRank_fields {rank mass : Nat} (h1 : 1 ≤ rank) (h8 : rank ≤ 8) (hm : mass < 2048) (pos : Pos) :
    let n := 32 * (rank - 1) + 4 * (mass / 256) + pos.toNat
    n < 256 ∧ n / 32 + 1 = rank ∧ n / 4 % 8 * 256 + mass % 256 = mass ∧ n % 4 = pos.toNat := by
  have := pos.isLt
  omega

theorem entryBytes_size (pos : Pos) (run : Bool) (e : ReportEntry) : (entryBytes pos run e).length = if run then 11 else 10 := by
  cases run <;> rfl

/-- The word of a report entry's offset and its run bit. -/
theorem entryOffset_fields (run : Bool) (o : Nat) :
    beNat (beBytes 2 (32768 * bitOf run + fitOffset 14 o)) / 32768 = bitOf run
      ∧ (o < 16384 → beNat (beBytes 2 (32768 * bitOf run + fitOffset 14 o)) % 16384 = o) := by
  have := bitOf_le run
  have low : fitOffset 14 o < 16384 := fitOffset_lt 14 o
  rw [beNat_beBytes_mod 2, show 256 ^ 2 = 65536 from rfl]
  refine ⟨by omega, fun h => ?_⟩
  rw [fitOffset_of_lt (bits := 14) h]
  omega

theorem entryBytes_fields (pos : Pos) (run : Bool) {e : ReportEntry} (state : e.state ≠ .free) (rank : 1 ≤ e.rank)
    (high : e.rank ≤ 8) (mass : e.mass < 2048) (lane : e.lane ≤ 255) :
    let word := fun (i k : Nat) => beNat (((entryBytes pos run e).drop i).take k)
    unitKinds[word 0 1 / 32]? = some e.kind ∧ entryStates[word 0 1 / 4 % 8]? = some e.state
      ∧ (word 0 1 / 2 % 2 = 1 ↔ e.forced = true) ∧ (word 0 1 % 2 = 1 ↔ e.defaulted = true)
      ∧ word 1 1 / 32 + 1 = e.rank ∧ word 1 1 / 4 % 8 * 256 + word 7 1 = e.mass ∧ word 1 1 % 4 = pos.toNat
      ∧ word 2 5 = e.mark.toNat ∧ (word 8 2 / 32768 = 1 ↔ run = true)
      ∧ (e.offset.getD 0 < 16384 → word 8 2 % 16384 = e.offset.getD 0)
      ∧ (run = true → word 10 1 = e.lane) := by
  intro word
  obtain ⟨kindLe, kind⟩ := unitKinds_code e.kind
  obtain ⟨stateLe, stateIs⟩ := entryStates_code state
  obtain ⟨headLt, kindAt, stateAt, forced, defaulted⟩ := entryHead_fields kindLe stateLe e.forced e.defaulted
  obtain ⟨rankLt, rankAt, massAt, posAt⟩ := entryRank_fields rank high mass pos
  obtain ⟨runAt, offset⟩ := entryOffset_fields run (e.offset.getD 0)
  have head : word 0 1 = 32 * (codeOfKind e.kind).toNat + 4 * reportStateCode e.state + 2 * bitOf e.forced + bitOf e.defaulted :=
    beNat_byte headLt
  have second : word 1 1 = 32 * (e.rank - 1) + 4 * (e.mass / 256) + pos.toNat := beNat_byte rankLt
  have low : word 7 1 = e.mass % 256 := beNat_beBytes (k := 1) (Nat.mod_lt _ (by decide))
  have marks : word 2 5 = e.mark.toNat := beNat_beBytes_toNat (k := 5) e.mark
  have offsets : word 8 2 = beNat (beBytes 2 (32768 * bitOf run + fitOffset 14 (e.offset.getD 0))) := rfl
  rw [head, second, low, marks, offsets, kindAt, stateAt, forced, defaulted, runAt]
  refine ⟨kind, stateIs, bitOf_eq_one, bitOf_eq_one, rankAt, massAt, posAt, rfl, bitOf_eq_one, offset, fun start => ?_⟩
  subst start
  exact beNat_beBytes (k := 1) (Nat.lt_succ_of_le lane)

/-! ## The bodies that carry records and entries (R170, R177) -/

theorem flatMap_length_le {α β : Type} {f : α → List β} {k : Nat} (h : ∀ x, (f x).length ≤ k) (l : List α) :
    (l.flatMap f).length ≤ k * l.length := by
  induction l with
  | nil => exact Nat.zero_le _
  | cons x t ih =>
    have := h x
    rw [List.flatMap_cons, List.length_append, List.length_cons, Nat.mul_succ]
    omega

/-- A DRAIN LOG reply of at most three records stands whole in its frame. -/
theorem frameBody_drained (tag : Byte) (pos : Pos) (code : ReplyCode) {records : List ExcRecord} (left : Nat) (next : Seq)
    (h : records.length ≤ 3) :
    frameBody (.reply tag pos code (.drained records left next))
      = [tag, BitVec.ofNat 8 pos.toNat, Config.outcomeCode code, BitVec.ofNat 8 records.length, BitVec.ofNat 8 left]
        ++ beBytes 2 next.toNat ++ records.flatMap excBytes := by
  have size := flatMap_length_le (fun r => (excBytes_size r).le) records
  refine List.take_of_length_le ?_
  change ([_, _, _, _, _, _, _] ++ records.flatMap excBytes).length ≤ 67
  rw [List.length_append]
  simp only [List.length_cons, List.length_nil]
  omega

/-- A REPORT RECORDS frame carries its serial and all its entries. -/
theorem frameBody_reportRecords (serial : Byte) (pos : Pos) {es : List (Bool × ReportEntry)} (h : es.length ≤ 6) :
    frameBody (.reportRecords serial pos es) = serial :: es.flatMap fun e => entryBytes pos e.1 e.2 := by
  have entry : ∀ e : Bool × ReportEntry, (entryBytes pos e.1 e.2).length ≤ 11 := fun e => by
    rw [entryBytes_size]; split <;> decide
  have size := flatMap_length_le entry es
  refine List.take_of_length_le ?_
  change (serial :: es.flatMap fun e => entryBytes pos e.1 e.2).length ≤ 67
  rw [List.length_cons]
  omega

end Sys2Proof.Machine

namespace Sys2Proof.Machine

/-! ## O60 -/

theorem frameBytes_arrives (type : Byte) (body junk : List Byte) (h : body.length ≤ 67) (hj : ∀ b ∈ junk, b ≠ 0x7E#8) :
    8 ≤ (frameBytes type body).length ∧ (frameBytes type body).length ≤ 72
      ∧ testArrival (junk ++ frameBytes type body) = .passes :=
  have ⟨low, high⟩ := frameBytes_size type h
  ⟨low, high, testArrival_frameBytes type h hj⟩

/-- A number of 32 bits is given back by a field of one to four bytes. -/
theorem numberField_read (f : Frame) (i j : Nat) {n : Nat} (h : n < 2 ^ 32) :
    let b := fieldBytes f i j (.number n)
    beNat b = n ∧ 1 ≤ b.length ∧ b.length ≤ 4 :=
  ⟨beNat_numberBytes h, numberBytes_size _ n⟩

/-- WRITE RANGE carries its base, and its count less one (R3). -/
theorem frameBody_writeRange (q : ReqHead) (base count : Nat) :
    let f : Frame := .request q (.writeRange base count)
    beBytes 1 base <:+: frameBody f
      ∧ (count ≤ 64 → ∃ k, 1 ≤ k ∧ k ≤ 4 ∧ beBytes k (count - 1) <:+: frameBody f
        ∧ beNat (beBytes k (count - 1)) = count - 1) := by
  intro f
  have parts : bodyParts f = [otherBytes f, beBytes 1 base,
      beBytes (numberWidth (Config.fieldWidth f 1 0) (count - 1)) (count - 1)] := by
    simp only [f, bodyParts, bodyFields, requestFields, Field.each, Field.lane, fieldBytes, List.map_cons, List.map_nil,
      List.mapIdx_cons, List.mapIdx_nil, partBytes_single, numberBytes_eq, Nat.zero_add]
  have stands {l : List Byte} (h : l ∈ bodyParts f) : l <:+: frameBody f :=
    part_mem_frameBody rfl (writeRange_size q base count) h
  have ⟨low, high⟩ := numberWidth_bounds (Config.fieldWidth f 1 0) (count - 1)
  exact ⟨stands (by simp [parts]), fun small => ⟨_, low, high, stands (by simp [parts]), beNat_numberBytes (by omega)⟩⟩

/-- ID carries the serial, the base and the count of the range as it is (R76). -/
theorem frameBody_ident (pos : Pos) (role : Role) (serial : BitVec 32) (base : Nat) {count : Nat} (v : Voyage)
    (h : count < 2 ^ 32) :
    let f : Frame := .ident pos role serial base count v
    beBytes 4 serial.toNat <:+: frameBody f ∧ beBytes 1 base <:+: frameBody f
      ∧ ∃ k, 1 ≤ k ∧ k ≤ 4 ∧ beNat (beBytes k count) = count ∧ beBytes k count <:+: frameBody f := by
  intro f
  have stands {l : List Byte} (h : l ∈ bodyParts f) : l <:+: frameBody f :=
    part_mem_frameBody rfl (ident_size pos role serial base count v) h
  have parts : bodyParts f = [otherBytes f, numberBytes (Config.fieldWidth f 0 0) pos.toNat, beBytes 4 serial.toNat,
      beBytes 1 base, beBytes (numberWidth (Config.fieldWidth f 3 0) count) count] := by
    simp only [f, bodyParts, bodyFields, Field.each, Field.lane, fieldBytes, List.map_cons, List.map_nil, List.mapIdx_cons,
      List.mapIdx_nil, partBytes_single, numberBytes_eq, Nat.zero_add, Nat.reduceAdd]
  have ⟨low, high⟩ := numberWidth_bounds (Config.fieldWidth f 3 0) count
  exact ⟨stands (by simp [parts]), stands (by simp [parts]), _, low, high, beNat_numberBytes h, stands (by simp [parts])⟩

theorem frameBody_noFields {q : ReqHead} {b : ReqBody} (h : b = .readStowSummary ∨ b = .undo ∨ b = .commitTrials
    ∨ b = .openVoyage ∨ b = .clearVoyage ∨ b = .readVoyage) : frameBody (.request q b) = bodyHead (.request q b) := by
  rcases h with rfl | rfl | rfl | rfl | rfl | rfl <;>
  exact frameBody_bare (fun _ _ => ReqBody.noConfusion) rfl rfl

/-- What an exception record's two bytes of detail carry. -/
theorem excBytes_detail_fields (r : ExcRecord) :
    let word := beNat (((excBytes r).drop 18).take 2)
    (r.detail = none → word = 0) ∧ (∀ id, r.detail = some (.hoistSection id) → word = id % 65536)
      ∧ ∀ failed, r.detail = some (.checks failed) → word < 32768
        ∧ ∀ n c, allChecks[n]? = some c → (word / 2 ^ n % 2 = 1 ↔ c ∈ failed) := by
  intro word
  have detail : word = (r.detail.map detailWord).getD 0 % 65536 := excBytes_detail r
  refine ⟨fun h => by rw [detail, h]; rfl, fun id h => by rw [detail, h]; rfl, fun failed h => ?_⟩
  have lt := detailWord_checks_lt failed
  have checks : word = detailWord (.checks failed) := by
    rw [detail, h]; exact Nat.mod_eq_of_lt (lt.trans (by decide))
  rw [checks]
  exact ⟨lt, fun n c hc => detailWord_checks_bit failed hc⟩

/-- Settles O60, by computing the window of each field where a table prints it, and by the parts of a body where its order is
open. -/
theorem encodingsAreReadBack : Obligations.EncodingsAreReadBack := by
  refine ⟨⟨fun l b => ⟨rfl, beNat_append l b⟩, fun d => ⟨descOfBytes_descBytes d, descBytes_size d⟩, descBytes_long_fields,
      descBytes_short_fields⟩,
    ⟨bidOfBytes_bidBytes, bidBytes_size, rfl, rfl, fun sc p l o => bidBytes_bid_fields p o,
      fun p l o st => bidBytes_duplicate_fields p o st⟩,
    ⟨frameBytes_arrives, fun f => frameBytes_arrives _ _ [] (frameBody_size f) fun _ h => nomatch h⟩,
    ⟨fun q b h => take_frameBody (wholeBody_request q h) rfl, ?_, fun c => ⟨desc_in_checkIn c, bid_in_checkIn c⟩,
      desc_in_confirm, desc_in_tallyOn, desc_in_profileDefault, frameBody_writeRange,
      fun f i j n h => numberField_read f i j h, ?_, ?_, ?_, fun pos role serial base count v h =>
        frameBody_ident pos role serial base v h, fun q b => frameBody_noFields, frameBody_order rfl rfl rfl,
      frameBody_order rfl rfl rfl, fun k i hk low high => ⟨signedOfBytes_signedBytes hk low high, signedBytes_size k i⟩⟩,
    ⟨?_, fun pos run e state rank high mass lane =>
        ⟨entryBytes_size pos run e, entryBytes_fields pos run state rank high mass lane⟩,
      fun tag pos code records left next h => frameBody_drained tag pos code left next h,
      fun serial pos es h => frameBody_reportRecords serial pos h⟩⟩
  case _ =>
    intro tag pos code b
    obtain ⟨rest, whole⟩ := wholeBody_reply tag pos code b
    exact take_frameBody whole rfl
  case _ =>
    intro tag pos p code
    have ⟨low, high⟩ := numberWidth_bounds (Config.fieldWidth (.reply tag pos code (.target p)) 0 0) p.toNat
    exact ⟨_, low, high, frameBody_target tag pos p code⟩
  case _ =>
    intro tag pos code codes h
    refine (frameBody_segregation tag pos code h).trans ?_
    simp only [codeOfSeg_eq]; rfl
  case _ =>
    intro tag pos code base count defined decks sections h
    have ⟨low, high⟩ := numberWidth_bounds
      (Config.fieldWidth (.reply tag pos code (.profileSummary base count defined decks sections)) 0 1) count
    exact ⟨_, low, high, beNat_numberBytes h, range_in_summary tag pos code base count defined decks sections⟩
  case _ =>
    intro r
    obtain ⟨sequence, clock, kind, mark, lane, second, detail, markAt, laneAt, secondAt⟩ := excBytes_fields r
    exact ⟨excBytes_size r, sequence, clock, kind, mark, lane, second, detail, markAt, laneAt, secondAt, excBytes_detail_fields r⟩

end Sys2Proof.Machine

namespace Sys2Proof.Machine

/-! # The operations of the Stow Map (O21, O22, O23, O24) -/

/-! ## Allocation (O24) -/

/-- A record that a canonical unit table lists is not FREE. -/
theorem TablesCanonical.not_free {s : State} (c : TablesCanonical s) {h : Handle} (f : Table.find s.records h ≠ none) :
    getRec s h ≠ freeRecord := by
  obtain ⟨r, e⟩ := Option.ne_none_iff_exists'.1 f
  have listed := c.listed _ (Table.find_mem e)
  unfold getRec; rw [e]; exact listed

/-- The record of lowest handle among the FREE ones. -/
theorem firstFree_some {s : State} (c : TablesCanonical s) {h : Handle} (e : firstFree s = some h) :
    h < Config.unitRecords ∧ getRec s h = freeRecord ∧ ∀ g, g < h → getRec s g ≠ freeRecord := by
  unfold firstFree at e; split at e
  · rename_i lt
    cases e
    refine ⟨lt, ?_, fun g below => c.not_free (Table.find_below_firstGap (Nat.zero_le _) below)⟩
    unfold getRec; rw [Table.find_firstGap c.records]; rfl
  · cases e

theorem firstFree_none {s : State} (c : TablesCanonical s) (e : firstFree s = none) :
    ∀ g, g < Config.unitRecords → getRec s g ≠ freeRecord := by
  unfold firstFree at e; split at e
  · cases e
  · rename_i full
    exact fun g lt => c.not_free (Table.find_below_firstGap (Nat.zero_le _) (lt.trans_le (Nat.not_lt.1 full)))

theorem allocate_none {s : State} (e : allocate s = none) : firstFree s = none ∧ s.departures = [] := by
  unfold allocate at e
  cases f : firstFree s with
  | some h => rw [f] at e; cases e
  | none =>
    cases d : s.departures with
    | nil => exact ⟨rfl, rfl⟩
    | cons h t => rw [f, d] at e; cases e

/-- An allocation that reclaims a record has found none FREE. -/
theorem allocate_reclaims {s t : State} {h : Handle} (e : allocate s = some (h, t)) (f : firstFree s = none) :
    ∃ rest, s.departures = h :: rest
      ∧ t = { setRec s h freeRecord with departures := rest, notices := noticeSet s.notices .recordsLow } := by
  unfold allocate at e
  cases d : s.departures with
  | nil => rw [f, d] at e; cases e
  | cons g rest => rw [f, d] at e; cases e; exact ⟨rest, rfl, rfl⟩

/-- Settles O24: by whether a FREE record is found, which the first gap of the unit table decides. -/
theorem allocationChoosesLowest : Obligations.AllocationChoosesLowest := by
  intro s c
  refine ⟨fun h t e => ?_, fun e => ?_⟩
  · cases f : firstFree s with
    | some g =>
      have same : g = h ∧ s = t := by unfold allocate at e; rw [f] at e; cases e; exact ⟨rfl, rfl⟩
      obtain ⟨rfl, rfl⟩ := same
      exact .inl ⟨rfl, firstFree_some c f⟩
    | none =>
      obtain ⟨rest, departures, eq⟩ := allocate_reclaims e f
      exact .inr ⟨firstFree_none c f, rest, departures, allocate_blank c e, eq⟩
  · obtain ⟨f, departures⟩ := allocate_none e
    exact ⟨firstFree_none c f, departures⟩

/-! ## Compaction (O22) -/

/-- Settles O22: what packing can do, for the pending part of the lane. -/
theorem compactionPacks : Obligations.CompactionPacks := by
  intro s l nd
  obtain ⟨packed, others, eta, stays⟩ :=
    packFrom_spec (stopArmOf s l) _ (aftOf s (aboardPart s (occupantsOf s l))) s nd
  exact ⟨packed, others, eta, stays, packFrom_moved (stopArmOf s l) _ _ s nd, compact_only s l⟩

/-! ## Listing (O21) -/

/-- A listing at the tail of a lane leaves the other slots and every lane entry as they stand. -/
theorem listAtTail_slotOf (s : State) (h : Handle) {l m : Lane} (ml : m ≠ l) : slotOf (listAtTail s h l) m = slotOf s m := by
  unfold listAtTail; split
  · rw [slotOf_setOccupants, if_neg ml]; rfl
  · rfl

theorem listAtTail_refused {s : State} {h : Handle} {l : Lane} (room : hasRoom s l = false) : listAtTail s h l = s := by
  unfold listAtTail; rw [if_neg (by rw [room]; decide)]

theorem recLength_of_desc {r : UnitRec} {u : UnitDesc} (d : r.desc = some u) : recLength r = u.length := by
  unfold recLength; rw [d]; rfl

theorem recKind_of_desc {r : UnitRec} {u : UnitDesc} (d : r.desc = some u) : recKind r = u.kind := by
  unfold recKind; rw [d]; rfl

/-- The offset behind the last of some occupants, or at the forward stop (R30). -/
theorem offsetBehind_aftOf (s : State) (o : List Handle) (k : UnitKind) :
    offsetBehind s (aftOf s o) k = match o.getLast? with
      | none => 0
      | some g => recAft (getRec s g) + perKind s.gaps k := by
  unfold offsetBehind aftOf; cases o.getLast? <;> rfl

theorem listAtTail_lists {s : State} {h : Handle} {l : Lane} {u : UnitDesc} (desc : (getRec s h).desc = some u)
    (room : hasRoom s l = true) :
    getRec (listAtTail s h l) h =
      { getRec s h with
        lane := some l, offset := some (offsetBehind s (aftOf s (occupantsOf s l)) u.kind)
        centre := some (centreArm (stopArmOf s l) (offsetBehind s (aftOf s (occupantsOf s l)) u.kind) u.length)
        changed := true } := by
  obtain ⟨-, -, self, -⟩ := listAtTail_spec (h := h) room
  rw [self, recLength_of_desc desc, recKind_of_desc desc]

/-- Settles O21: what the two listing operations do where the lane has room. -/
theorem listingPlacesTheRecord : Obligations.ListingPlacesTheRecord := by
  refine ⟨fun s h l u desc => ⟨listAtTail_refused, fun room => ?_⟩, fun s h l off room => ?_⟩
  · obtain ⟨list, -, -, others⟩ := listAtTail_spec (h := h) room
    have self := listAtTail_lists desc room
    rw [offsetBehind_aftOf] at self
    exact ⟨list, self, others, fun m ml => listAtTail_slotOf s h ml, (sameProfile_listAtTail s h l).entryOf l,
      listAtTail_only s h l⟩
  · have slot := hasRoom_slot room
    have placed : listBehindAboard s h l = placeAboard s h l := if_pos room
    obtain ⟨list, self, aboard, elsewhere, slots⟩ := placeAboard_spec s h l slot
    obtain ⟨eta, packs⟩ := placeAboard_packs s h l off slot
    rw [placed]
    exact ⟨list, self, aboard, elsewhere, fun g gh => eta_of (eta g gh), packs, slots, placeAboard_only s h l⟩

/-! ## Unlisting, freeing and departing (O23) -/

/-- What unlisting `h` from lane `l` of state `s` leaves of the other records and of the lanes (R32, R37, R42). -/
structure Unlisted (s t : State) (h : Handle) (l : Lane) : Prop where
  list : occupantsOf t l = (occupantsOf s l).filter (· != h)
  slots : ∀ m, m ≠ l → slotOf t m = slotOf s m
  aboard : ∀ g, g ≠ h → isAboard s g = true → getRec t g = getRec s g
  elsewhere : ∀ g, g ≠ h → g ∉ occupantsOf s l → getRec t g = getRec s g
  eta : ∀ g, g ≠ h → ∃ o c k, getRec t g = { getRec s g with offset := o, centre := c, changed := k }
  packed : (occupantsOf s l).Nodup →
    packedBehind t (aftOf t (aboardPart s ((occupantsOf s l).filter (· != h))))
      (pendingPart s ((occupantsOf s l).filter (· != h))) = true
  stays : (occupantsOf s l).Nodup → ∀ g, g ≠ h → (getRec t g).offset = (getRec s g).offset → getRec t g = getRec s g
  moves : (occupantsOf s l).Nodup → ∀ g, g ≠ h → (getRec t g).offset ≠ (getRec s g).offset → (getRec t g).changed = true
    ∧ ∃ o : Nat, (getRec t g).offset = some o
      ∧ (getRec t g).centre = some (centreArm (stopArmOf s l) o (recLength (getRec s g)))

theorem unlist_eq {s : State} {h : Handle} {l : Lane} (e : (getRec s h).lane = some l) :
    unlist s h = compact (setOccupants (setRec s h { getRec s h with offset := none, centre := none }) l
      ((occupantsOf s l).filter (· != h))) l := by
  unfold unlist; rw [e]; rfl

theorem unlist_unlisted {s : State} {h : Handle} {l : Lane} (e : (getRec s h).lane = some l) :
    Unlisted s (unlist s h) h l := by
  obtain ⟨-, list, slots, aboard, elsewhere, eta⟩ := unlist_spec s h l e
  have eq := unlist_eq e
  set y := setOccupants (setRec s h { getRec s h with offset := none, centre := none }) l
    ((occupantsOf s l).filter (· != h)) with hy
  have recs : ∀ g, g ≠ h → getRec y g = getRec s g := fun g gh => by rw [hy, getRec_setOccupants, getRec_setRec_other _ _ gh]
  have stop : stopArmOf y l = stopArmOf s l := by unfold stopArmOf; rw [hy, entryOf_setOccupants]; rfl
  have occ : occupantsOf y l = (occupantsOf s l).filter (· != h) := by
    rw [← compact_occupantsOf y l l, ← eq]; exact list
  have nodup : (occupantsOf s l).Nodup → (pendingPart y (occupantsOf y l)).Nodup := fun nd => by
    rw [occ]; exact (nd.filter _).filter _
  have spec := fun nd => packFrom_spec (stopArmOf y l) _ (aftOf y (aboardPart y (occupantsOf y l))) y (nodup nd)
  have moved := fun nd => packFrom_moved (stopArmOf y l) _ (aftOf y (aboardPart y (occupantsOf y l))) y (nodup nd)
  refine ⟨list, slots, aboard, elsewhere, eta, fun nd => ?_, fun nd g gh same => ?_, fun nd g gh other => ?_⟩
  · obtain ⟨ab, pend⟩ := filter_congr_aboard (s := s) (t := unlist s h) (o := (occupantsOf s l).filter (· != h))
      fun g hg => by
        obtain ⟨o, c, k, x⟩ := eta g (by simpa using (List.mem_filter.1 hg).2)
        unfold isAboard; rw [x]
    have packs := compact_packs (s := y) (l := l) (by rw [occ]; exact nd.filter _)
    rw [← eq, list, ab, pend] at packs
    exact packs
  · rw [eq, ← recs g gh] at same ⊢; exact (spec nd).2.2.2 g same
  · rw [eq, ← recs g gh] at other ⊢; rw [← stop]; exact moved nd g other

/-- What unlisting leaves stands through what touches no other record, no slot and no gap. -/
theorem Unlisted.of_same {s t t' : State} {h : Handle} {l : Lane} (p : Unlisted s t h l)
    (recs : ∀ g, g ≠ h → getRec t' g = getRec t g) (slots : ∀ m, slotOf t' m = slotOf t m) (gaps : t'.gaps = t.gaps) :
    Unlisted s t' h l where
  list := (occupantsOf_of_slot (slots l)).trans p.list
  slots m ml := (slots m).trans (p.slots m ml)
  aboard g gh a := (recs g gh).trans (p.aboard g gh a)
  elsewhere g gh n := (recs g gh).trans (p.elsewhere g gh n)
  eta g gh := by rw [recs g gh]; exact p.eta g gh
  packed nd := by
    have other : ∀ g ∈ (occupantsOf s l).filter (· != h), packKey (getRec t' g) = packKey (getRec t g) := fun g hg => by
      rw [recs g (by simpa using (List.mem_filter.1 hg).2)]
    unfold aboardPart pendingPart
    rw [aftOf_congr fun g hg => other g (List.mem_filter.1 hg).1,
      packedBehind_congr gaps _ _ fun g hg => other g (List.mem_filter.1 hg).1]
    exact p.packed nd
  stays nd g gh := by rw [recs g gh]; exact p.stays nd g gh
  moves nd g gh := by rw [recs g gh]; exact p.moves nd g gh

theorem freeRec_unlisted {s : State} {h : Handle} {l : Lane} (live : isLive (getRec s h).state = true)
    (e : (getRec s h).lane = some l) : Unlisted s (freeRec s h) h l := by
  have eq : freeRec s h
      = { setRec (unlist s h) h freeRecord with departures := (unlist s h).departures.filter (· != h) } := by
    unfold freeRec; simp only [live, if_true]
  have written : Unlisted s (setRec (unlist s h) h freeRecord) h l :=
    (unlist_unlisted e).of_same (fun g gh => getRec_setRec_other _ _ gh) (fun _ => rfl) rfl
  rw [eq]
  exact written.of_same (fun g _ => getRec_congr (by rfl) g) (fun _ => by rfl) (by rfl)

theorem makeLeft_unlisted {s : State} {h : Handle} {l : Lane} (e : (getRec s h).lane = some l) :
    Unlisted s (makeLeft s h) h l :=
  (unlist_unlisted e).of_same (fun g gh => by rw [makeLeft_getRec, getRec_setRec_other _ _ gh]) (fun _ => rfl) rfl

theorem makeLeft_departures (s : State) (h : Handle) : (makeLeft s h).departures = s.departures ++ [h] := by
  unfold makeLeft; rw [unlist_only]; rfl

/-- The record of a departure: LEFT, with its lane and aboard time, and without a place (R42, R132). -/
theorem makeLeft_self {s : State} {h : Handle} {l : Lane} (e : (getRec s h).lane = some l) :
    getRec (makeLeft s h) h =
      { getRec s h with
        state := .left, offset := none, centre := none, departureTime := some s.stowClock, changed := true } := by
  obtain ⟨self, -⟩ := unlist_spec s h l e
  rw [makeLeft_getRec, getRec_setRec_self]; unfold leftRecord; rw [self]

/-- Settles O23: both unlist the record, and write that record and the order of departure besides. -/
theorem freeingAndDepartureUnlist : Obligations.FreeingAndDepartureUnlist := by
  refine ⟨fun s h l live e => ?_, fun s h l e => ?_⟩
  · have p := freeRec_unlisted live e
    refine ⟨freeRec_self s h, p.list, p.slots, p.aboard, p.elsewhere, fun g gh => eta_of (p.eta g gh),
      fun nd => ⟨p.packed nd, p.stays nd, p.moves nd⟩, ?_⟩
    rw [← freeRec_departures]; exact freeRec_only s h
  · have p := makeLeft_unlisted e
    exact ⟨makeLeft_self e, p.list, makeLeft_departures s h, p.slots, p.aboard, p.elsewhere, fun g gh => eta_of (p.eta g gh),
      fun nd => ⟨p.packed nd, p.stays nd, p.moves nd⟩, makeLeft_only s h⟩

end Sys2Proof.Machine

namespace Sys2Proof.Machine

/-! # Bids and late reservations (O15, O19) -/

/-! ## A record allocated and listed at the tail -/

theorem occupantsOf_allocate {s t : State} {h : Handle} (e : allocate s = some (h, t)) (l : Lane) :
    occupantsOf t l = occupantsOf s l :=
  occupantsOf_of_slot (slotOf_congr (by rw [allocate_only e]) (by rw [allocate_only e]) l)

/-- A record just allocated and written stands last in its lane, with its place and nothing else added (R39). -/
theorem listAtTail_allocated {s a : State} {h : Handle} {l : Lane} {r : UnitRec} (e : allocate s = some (h, a))
    (room : hasRoom s l = true) (changed : r.changed = true) :
    occupantsOf (listAtTail (setRec a h r) h l) l = occupantsOf s l ++ [h]
      ∧ ∃ o c, getRec (listAtTail (setRec a h r) h l) h = { r with lane := some l, offset := o, centre := c } := by
  have written : hasRoom (setRec a h r) l = true := hasRoom_allocate e room
  obtain ⟨list, -, self, -⟩ := listAtTail_spec (h := h) written
  rw [getRec_setRec_self, ← changed] at self
  exact ⟨by rw [list, occupantsOf_setRec, occupantsOf_allocate e], _, _, self⟩

theorem listAtTail_offers (s : State) (h : Handle) (l : Lane) : (listAtTail s h l).offers = s.offers := by
  rw [listAtTail_only]

theorem listAtTail_policy (s : State) (h : Handle) (l : Lane) : (listAtTail s h l).policy = s.policy := by
  rw [listAtTail_only]

/-! ## The bid step (O15) -/

/-- The record of an offer before it is listed (R84). -/
def offerRecord (s : State) (u : UnitDesc) (n : Seq) : UnitRec :=
  { newRecord u .offered with sequence := some n, deadline := some s.policy.offerTimeout }

theorem placeOffer_eq {s a : State} {u : UnitDesc} {n : Seq} {l : Lane} {h : Handle} (e : allocate s = some (h, a)) :
    placeOffer s u n l
      = { listAtTail (setRec a h (offerRecord s u n)) h l with offers := s.offers ++ [h] } := by
  have offers : (listAtTail (setRec a h (offerRecord s u n)) h l).offers = s.offers := by
    rw [listAtTail_offers, setRec_offers, allocate_only e]
  unfold placeOffer; rw [e, ← offers]; rfl

theorem generalAvailable_false_iff {s : State} : (!generalAvailable s) = true ↔ 480 ≤ liveCount s := by
  unfold generalAvailable; simp

theorem offersFull_iff {s : State} :
    offersFull s = true ↔ 8 ≤ s.offers.length ∨ 64 ≤ s.offers.length + s.reservations.length := by
  unfold offersFull commitmentRoom; simp

/-- The bid step of an engine that does not hold the mark of a good description. -/
theorem bidStep_competes {s : State} {c : CheckIn} {u : UnitDesc} (acts : bidPasses s c = false)
    (held : findHolder s (descMark c.desc) = none) (unit : descUnit c.desc = some u) : bidStep s c = bidCompete s c u := by
  unfold bidStep; rw [acts, held, unit]; rfl

/-- Settles O15: the bidding part by its tests in turn, and the offer by its allocation and its listing. -/
theorem bidStepCompetes : Obligations.BidStepCompetes := by
  refine ⟨fun c s u acts held unit => ?_, fun s a u n l h e => ⟨placeOffer_eq e, fun room => ?_⟩⟩
  · rw [bidStep_competes acts held unit]
    unfold bidCompete
    simp only [generalAvailable_false_iff, offersFull_iff]
    split
    · rfl
    split
    · rfl
    cases bestLane s u with
    | none => rfl
    | some b =>
      cases bid : c.bid with
      | none => rfl
      | bid sc p l o =>
        have beaten : beats b.score (.bid sc p l o) = decide (b.score < sc) := rfl
        simp only [beaten, decide_eq_true_eq]
      | duplicate p l o st => unfold bidPasses at acts; rw [bid] at acts; simp at acts
      | invalid => unfold bidPasses at acts; rw [bid] at acts; simp at acts
  · obtain ⟨list, o, c, self⟩ := listAtTail_allocated (r := offerRecord s u n) e room rfl
    rw [placeOffer_eq e]
    refine ⟨list, ?_⟩
    have read : getRec { listAtTail (setRec a h (offerRecord s u n)) h l with offers := s.offers ++ [h] } h
        = { offerRecord s u n with lane := some l, offset := o, centre := c } := self
    rw [read]; rfl

/-! ## The winner's CONFIRM step (O19) -/

/-- All fifteen checks pass at the tail position exactly where the set of failed ones is empty (R64). -/
theorem tailFailures_isEmpty_iff {s : State} {l : Lane} {e : LaneEntry} {u : UnitDesc} :
    (tailFailures s l e u).isEmpty = true ↔ ∀ k, checkPasses s l e u (tailPlacement s l e u) k = true := by
  have every : ∀ k : Check, k ∈ allChecks := fun k => by cases k <;> decide
  unfold tailFailures failedOf
  rw [List.isEmpty_iff, List.filter_eq_nil_iff]
  exact ⟨fun h k => by simpa using h k (every k), fun h k _ => by simp [h k]⟩

theorem lateEligible_iff {s : State} {u : UnitDesc} {l : Lane} :
    lateEligible s u l = true ↔ s.voyage = .opened
      ∧ (∃ e, entryOf s l = some e ∧ ∀ k, checkPasses s l e u (tailPlacement s l e u) k = true)
      ∧ s.offers.length + s.reservations.length < 64 := by
  unfold lateEligible commitmentRoom
  rw [Bool.and_eq_true, Bool.and_eq_true, beq_iff_eq, decide_eq_true_eq, and_assoc]
  cases entryOf s l with
  | none => simp
  | some e => simp only [tailFailures_isEmpty_iff, Option.some.injEq, exists_eq_left']

/-- When a late CONFIRM reserves: the five conditions of R93 on its own description. -/
theorem lateUnit_iff {s : State} {c : Confirm} {l : Lane} {u : UnitDesc} :
    lateUnit s c l = some u ↔ descExactUnit c.desc = some u ∧ s.voyage = .opened
      ∧ (∃ e, entryOf s l = some e ∧ ∀ k, checkPasses s l e u (tailPlacement s l e u) k = true)
      ∧ s.offers.length + s.reservations.length < 64 ∧ liveCount s < 480 := by
  have general : generalAvailable s = true ↔ liveCount s < 480 := decide_eq_true_iff
  rw [lateUnit_eq_some, lateEligible_iff, general, and_assoc, and_assoc]

theorem confirmStep_winner {s : State} {c : Confirm} {l : Lane} {o : Nat} (e : c.result = .winner s.position l o) :
    confirmStep s c = confirmWinner s c l := by
  unfold confirmStep; rw [e]; exact if_pos rfl

/-- The offer is matched by state, sequence and mark (R89). -/
theorem offer_matches_iff {s : State} {c : Confirm} {h : Handle} :
    ((getRec s h).state == .offered && (getRec s h).sequence == some c.sequence && recHasMark (descMark c.desc) (getRec s h)) = true
      ↔ (getRec s h).state = .offered ∧ (getRec s h).sequence = some c.sequence
        ∧ (getRec s h).desc.map UnitDesc.mark = some (descMark c.desc) := by
  unfold recHasMark; simp only [Bool.and_eq_true, beq_iff_eq, and_assoc]

/-- The record of a late reservation before it is listed (R93). -/
def lateRecord (u : UnitDesc) (n : Seq) : UnitRec := { newRecord u .reserved with sequence := some n }

theorem lateReserve_eq {s a : State} {u : UnitDesc} {n : Seq} {l : Lane} {h : Handle} (e : allocate s = some (h, a)) :
    lateReserve s u n l
      = post (joinReservations (listAtTail (setRec a h (lateRecord u n)) h l) h) .lateConfirm (some u.mark) (some l) none none := by
  unfold lateReserve; rw [e]; rfl

theorem mem_joinReservations (s : State) (h : Handle) : h ∈ (joinReservations s h).reservations :=
  (joinReservations_perm s h).mem_iff.2 List.mem_cons_self

theorem getRec_post (s : State) (k : ExcKind) (m : Option Mark) (l : Option Lane) (m2 : Option Mark) (d : Option ExcDetail)
    (h : Handle) : getRec (post s k m l m2 d) h = getRec s h := getRec_congr (by rw [post_only]) h

theorem slotOf_post (s : State) (k : ExcKind) (m : Option Mark) (l : Option Lane) (m2 : Option Mark) (d : Option ExcDetail)
    (n : Lane) : slotOf (post s k m l m2 d) n = slotOf s n := slotOf_congr (by rw [post_only]) (by rw [post_only]) n

/-- Without a good unit a late CONFIRM is revoked, by the voyage state (R93). -/
theorem lateConfirm_revokes {s : State} {c : Confirm} {l : Lane} (none : lateUnit s c l = none) :
    lateConfirm s c l =
      (let s1 := if 480 ≤ liveCount s then raiseNotice s .recordsLow else s
      if s.voyage = .closed then
        ({ c with result := .none .closed }, emitFwd s1 (.revoke (descMark c.desc) l c.sequence .closed))
      else ({ c with result := .none .revoked }, emitFwd s1 (.revoke (descMark c.desc) l c.sequence .revoked))) := by
  have low : (if generalAvailable s then s else raiseNotice s .recordsLow)
      = if 480 ≤ liveCount s then raiseNotice s .recordsLow else s := by
    simp only [← generalAvailable_false_iff]
    cases generalAvailable s <;> rfl
  unfold lateConfirm revokeReasons
  rw [none, ← low]
  by_cases closed : s.voyage = .closed
  · simp only [if_pos closed]
  · simp only [if_neg closed]

/-- Settles O19: the matching offer, then the holder of the mark, then the conditions of R93. -/
theorem confirmAtTheWinner : Obligations.ConfirmAtTheWinner := by
  refine ⟨fun c s h l o won offer => ?_, fun c s l o won noOffer => ⟨fun h st held state => ?_, fun free => ⟨fun u good => ?_, fun bad => ?_⟩⟩,
    fun s a u n l h e => ⟨lateReserve_eq e, ?_, fun room => ?_⟩, fun s c => ⟨fun h => ?_, ?_⟩⟩
  · rw [confirmStep_winner won]; unfold confirmWinner; rw [offer]; rfl
  · rw [confirmStep_winner won]; unfold confirmWinner; rw [noOffer, held]; dsimp only; rw [state]; rfl
  · rw [confirmStep_winner won]; unfold confirmWinner lateConfirm
    rw [noOffer, free]; dsimp only; rw [lateUnit_iff.2 good]
  · rw [confirmStep_winner won]; unfold confirmWinner
    rw [noOffer, free]
    refine lateConfirm_revokes (Option.eq_none_iff_forall_ne_some.2 fun u e => bad ⟨u, lateUnit_iff.1 e⟩)
  · rw [lateReserve_eq e, post_only]; exact mem_joinReservations _ h
  · obtain ⟨list, o, c, self⟩ := listAtTail_allocated (r := lateRecord u n) e room rfl
    have ticks : reservationTicks (listAtTail (setRec a h (lateRecord u n)) h l) = 10 * s.policy.resTimeout := by
      unfold reservationTicks; rw [listAtTail_policy, setRec_policy, allocate_only e]
    rw [lateReserve_eq e]
    refine ⟨?_, ?_⟩
    · rw [occupantsOf_of_slot (slotOf_post ..)]; exact list
    · rw [getRec_post, joinReservations_rec, self, ticks]; rfl
  · unfold matchingOffer
    rw [List.find?_eq_some_iff_append, offer_matches_iff]
    simp only [Bool.not_eq_true', Bool.eq_false_iff, ne_eq, offer_matches_iff]
  · unfold matchingOffer
    rw [List.find?_eq_none]
    simp only [offer_matches_iff]

end Sys2Proof.Machine

namespace Sys2Proof.Machine

/-! # Forced placements and restows (O29) -/

/-! ## The test of R129 -/

theorem listable_iff {s : State} {l : Lane} :
    listable s l = true ↔ ∃ e, entryOf s l = some e ∧ Table.find s.decks e.deck ≠ none := by
  unfold listable deckOf
  cases entryOf s l with
  | none => simp
  | some e => simp [Option.isSome_iff_ne_none]

theorem canTake_iff {s : State} {l : Lane} {own : Option Handle} : canTake s l own = true ↔
    (∃ e, entryOf s l = some e ∧ Table.find s.decks e.deck ≠ none)
      ∧ ((occupantsOf s l).filter fun h => decide (some h ≠ own)).length < 40 := by
  have same : (fun h : Handle => some h != own) = fun h => decide (some h ≠ own) := by
    funext h; rw [bne, Bool.beq_eq_decide_eq, decide_not]
  unfold canTake
  rw [Bool.and_eq_true, listable_iff, decide_eq_true_eq, same]

theorem forcedAvailable_iff {s : State} : forcedAvailable s = true ↔ liveCount s < 512 := decide_eq_true_iff

/-- Both tests of a forced placement or restow pass (R26, R129). -/
theorem recordable_iff {s : State} {l : Lane} :
    (canTake s l none && forcedAvailable s) = true ↔ canTake s l none = true ∧ liveCount s < 512 := by
  rw [Bool.and_eq_true, forcedAvailable_iff]

/-! ## A unit that is recorded -/

theorem tallyForced_records {s a : State} {m : Mark} {l : Lane} {d : Option Desc} {n : Handle}
    (can : canTake s l none = true) (live : liveCount s < 512) (e : allocate s = some (n, a)) :
    tallyForced s m l d =
      (let u := (forcedUnit s m d).1
      let placed := listBehindAboard
        (setRec a n { newRecord u .aboard with forced := true, defaulted := (forcedUnit s m d).2 }) n l
      recorded (judge (postLimit (post placed .forced (some m) (some l) none none) m l (forcedFailures a l u)) m l u.rank
        (aheadRec a l))) := by
  unfold tallyForced
  rw [if_pos (recordable_iff.2 ⟨can, live⟩), e]

theorem tallyRestow_records {s a : State} {m : Mark} {l : Lane} {h n : Handle} {u : UnitDesc}
    (can : canTake s l none = true) (live : liveCount s < 512) (e : allocate s = some (n, a))
    (desc : (getRec s h).desc = some u) :
    tallyRestow s m l h =
      (let left := makeLeft (setRec a n
        { freeRecord with
          state := .aboard, desc := some u, forced := (getRec s h).forced, defaulted := (getRec s h).defaulted
          changed := true }) h
      let logged := postExitOrder s (post (listBehindAboard left n l) .restow (some m) (some l) none none) h m
      recorded (judge (postLimit logged m l (forcedFailures left l u)) m l u.rank (aheadRec left l))) := by
  unfold tallyRestow
  rw [if_pos (recordable_iff.2 ⟨can, live⟩), e]
  dsimp only
  rw [desc, recRank_of_desc desc]

/-- The description of a forced placement, and whether it is the default unit (R127). -/
theorem forcedUnit_eq (s : State) (m : Mark) (d : Option Desc) : forcedUnit s m d =
    ((match d.bind descUnit with
      | some v => { v with mark := m }
      | none => { s.defaultUnit with mark := m }), (d.bind descUnit).isNone) := by
  unfold forcedUnit; cases d.bind descUnit <;> rfl

/-! ## The aboard position (R53) -/

/-- One pending occupant packed behind an aft end: the new aft end, and its trim contribution added to a sum (R53). -/
def packStep (s : State) (stop : Int) (x : Nat × Int) (h : Handle) : Nat × Int :=
  let o := x.1 + perKind s.gaps (recKind (getRec s h))
  (o + recLength (getRec s h), x.2 + (recMass (getRec s h) : Int) * centreArm stop o (recLength (getRec s h)))

/-- Packing figures as one pass over the pending occupants, an aft end and a sum carried along. -/
theorem foldl_packStep (s : State) (stop : Int) (hs : List Handle) : ∀ (aft : Nat) (sum : Int),
    hs.foldl (packStep s stop) (aft, sum) = ((packedFigures s stop aft hs).1, sum + (packedFigures s stop aft hs).2) := by
  induction hs with
  | nil => intro aft sum; simp [packedFigures]
  | cons h t ih => intro aft sum; rw [List.foldl_cons, packStep, ih, packedFigures, Int.add_assoc]

theorem packedFigures_eq_foldl (s : State) (stop : Int) (hs : List Handle) (aft : Nat) :
    packedFigures s stop aft hs = hs.foldl (packStep s stop) (aft, 0) := by
  rw [foldl_packStep, Int.zero_add]

theorem forcedFailures_eq {s : State} {l : Lane} {e : LaneEntry} {u : UnitDesc} (entry : entryOf s l = some e) :
    forcedFailures s l u = failedOf s l e u (aboardPlacement s l e u) forcedChecks := by
  unfold forcedFailures; rw [entry]

/-! ## A unit that is not recorded -/

/-- What a tally that cannot be recorded leaves: UNRECORDED logged, the lane SUSPECT, SUSPECT_LANE set, and RECORDS_LOW too
where a forced allocation is refused (R129). -/
def unrecordedResult (s : State) (m : Mark) (l : Lane) (low : Bool) : TallyResult :=
  let p := post s .unrecorded (some m) (some l) none none
  { st :=
      { p with
        lanes := (modifySlot s l fun x => { x with suspect := true }).lanes
        notices := { p.notices with suspectLane := true, recordsLow := s.notices.recordsLow || low } }
    marks := true, changed := true, freed := false }

theorem unrecorded_eq (s : State) (m : Mark) (l : Lane) : unrecorded s m l = unrecordedResult s m l false := by
  have lanes : (setSuspect (post s .unrecorded (some m) (some l) none none) l true).lanes
      = (modifySlot s l fun x => { x with suspect := true }).lanes := by
    unfold setSuspect; rw [modifySlot_lanes, modifySlot_lanes, post_only]
  have low : (post s .unrecorded (some m) (some l) none none).notices.recordsLow = s.notices.recordsLow := by
    unfold post; split <;> rfl
  unfold unrecorded unrecordedResult
  rw [← lanes, setSuspect_only, Bool.or_false, ← low]; rfl

theorem unrecorded_low (s : State) (m : Mark) (l : Lane) :
    unrecorded (raiseNotice s .recordsLow) m l = unrecordedResult s m l true := by
  rw [unrecorded_eq]
  unfold unrecordedResult post raiseNotice
  simp only [Bool.or_true, Bool.or_false, modifySlot_lanes]
  split <;> rfl

theorem unrecorded_refusedForced (s : State) (m : Mark) (l : Lane) :
    unrecorded (refusedForced s) m l = unrecordedResult s m l (decide (512 ≤ liveCount s)) := by
  unfold refusedForced
  by_cases live : liveCount s < 512
  · rw [if_pos (forcedAvailable_iff.2 live), unrecorded_eq, decide_eq_false (Nat.not_le.2 live)]
  · rw [if_neg (live ∘ forcedAvailable_iff.1), unrecorded_low, decide_eq_true (Nat.not_lt.1 live)]

/-- The lane test or the allocation of a forced placement fails (R129). -/
theorem not_recordable {s : State} {l : Lane} (h : canTake s l none = false ∨ 512 ≤ liveCount s) :
    ¬ (canTake s l none && forcedAvailable s) = true := by
  rw [recordable_iff]
  rintro ⟨can, live⟩
  rcases h with h | h
  · rw [can] at h; cases h
  · omega

/-- Settles O29: what is recorded where the test of R129 passes, the figures of R53, and what is left where it fails. -/
theorem forcedPlacementOrUnrecorded : Obligations.ForcedPlacementOrUnrecorded := by
  refine ⟨fun s a m l d n can live e => ?_, fun s l own => canTake_iff, fun s l e u => ?_,
    fun s a m l h n u can live e desc => ?_, fun s m l d h => ⟨fun fails => ?_, fun fails => ?_, fun fails => ?_, fun fails => ?_⟩⟩
  · rw [tallyForced_records can live e, forcedUnit_eq]
    dsimp only
    rw [postLimit_eq]; rfl
  · refine ⟨offsetBehind_aftOf .., ?_, rfl, rfl, ?_, rfl, rfl, forcedFailures_eq⟩
    · unfold aboardPlacement; dsimp only; rw [packedFigures_eq_foldl]; rfl
    · unfold aboardPlacement; dsimp only; rw [packedFigures_eq_foldl]; rfl
  · rw [tallyRestow_records can live e desc]
    unfold postExitOrder
    dsimp only
    rw [postLimit_eq]; rfl
  · unfold tallyForced; rw [if_neg (not_recordable fails)]; exact unrecorded_refusedForced s m l
  · unfold tallyRestow; rw [if_neg (not_recordable fails)]; exact unrecorded_refusedForced s m l
  · unfold tallyMove; rw [if_neg (by rw [fails]; decide)]; exact unrecorded_eq s m l
  · unfold tallyConvert; rw [if_neg (by rw [fails]; decide)]; exact unrecorded_eq s m l

end Sys2Proof.Machine

namespace Sys2Proof.Machine

/-! # UNDO and COMMIT TRIALS (O48) -/

/-! ## One trial -/

theorem hoistLaneUp_iff {s : State} {l : Lane} :
    hoistLaneUp s l = true ↔ ∃ e ∈ s.sections, l ∈ e.2.hoist ∧ e.2.state ≠ .deployed := by
  unfold hoistLaneUp
  simp only [List.any_eq_true, Bool.and_eq_true, List.contains_iff_mem, bne_iff_ne]

theorem trialDiscarded_iff {s : State} {h : Handle} : trialDiscarded s h = true ↔
    (findHolder s (recMark (getRec s h))).isSome = true
      ∨ ∃ e ∈ s.sections, ((getRec s h).lane.getD 0) ∈ e.2.hoist ∧ e.2.state ≠ .deployed := by
  unfold trialDiscarded; rw [Bool.or_eq_true, hoistLaneUp_iff]; rfl

/-- The whole record of a pending unit that becomes RESERVED in place (R44, R98). -/
theorem makeReserved_self (s : State) (h : Handle) : getRec (makeReserved s h) h =
    { getRec s h with state := .reserved, changed := true, deadline := some (10 * s.policy.resTimeout) } := by
  unfold makeReserved; rw [joinReservations_rec, getRec_setRec_self]; rfl

/-! ## The trials one after another -/

/-- The trials taken touch the Stow Map, the order of departure and the reservation list alone. -/
theorem commitEach_only (hs : List Handle) : ∀ c : Committed,
    (commitEach hs c).st =
      { c.st with
        records := (commitEach hs c).st.records, lanes := (commitEach hs c).st.lanes
        departures := (commitEach hs c).st.departures, reservations := (commitEach hs c).st.reservations } := by
  induction hs with
  | nil => intro c; rfl
  | cons h t ih =>
    intro c
    rw [commitEach]; split
    · rw [ih]; dsimp only; rw [freeRec_only]
    · rw [ih]; dsimp only; rw [makeReserved_only]

/-- Each trial is counted once, and joins the reservation list only where it is converted (R114). -/
theorem commitEach_counts (hs : List Handle) : ∀ c : Committed,
    (commitEach hs c).converted + (commitEach hs c).discarded = c.converted + c.discarded + hs.length
      ∧ (commitEach hs c).st.reservations.length + c.converted ≤ c.st.reservations.length + (commitEach hs c).converted := by
  induction hs with
  | nil => intro c; exact ⟨rfl, Nat.le_refl _⟩
  | cons h t ih =>
    intro c
    rw [commitEach, List.length_cons]; split
    · obtain ⟨counts, lengths⟩ := ih { c with st := freeRec c.st h, discarded := c.discarded + 1 }
      have same : (freeRec c.st h).reservations = c.st.reservations := by rw [freeRec_only]
      dsimp only at counts lengths
      rw [same] at lengths
      omega
    · obtain ⟨counts, lengths⟩ := ih { c with st := makeReserved c.st h, converted := c.converted + 1 }
      have joined : (makeReserved c.st h).reservations.length ≤ c.st.reservations.length + 1 :=
        (joinReservations_length h).trans_le (Nat.add_le_add_right (List.length_filter_le ..) 1)
      dsimp only at counts lengths
      omega

/-! ## The requests -/

theorem undo_answers {q : ReqHead} {s : State} (ready : Addressed q .undo s) :
    exec (.undo q) s = .next
      (match s.trials with
      | [] => replied q .noSuch .empty s
      | h :: rest =>
        let t := freeRec { took .fwd s with trials := rest } h
        endEvent s
          (capacityFreed
            { t with
              pendingClear := false
              origRet := s.origRet
                ++ [.reply q.tag s.position .ok (.undone h (recMark (getRec s h)) rest.length)] })) := by
  change Host.Outcome.next (serve q _ actUndo s) = _
  cases stack : s.trials with
  | nil => exact serve_refuses ready (by unfold actUndo; rw [show (took .fwd s).trials = [] from stack])
  | cons h rest =>
    have act : actUndo (took .fwd s)
        = { st := freeRec { took .fwd s with trials := rest } h, code := .ok
            body := .undone h (recMark (getRec s h)) rest.length, after := .freed } := by
      unfold actUndo; rw [show (took .fwd s).trials = h :: rest from stack]; rfl
    rw [serve_freed ready act]
    dsimp only
    rw [freeRec_only]; rfl

theorem commitTrials_full {q : ReqHead} {s : State} (ready : Addressed q .commitTrials s)
    (full : 64 < s.offers.length + s.reservations.length + s.trials.length) :
    exec (.commitTrials q) s = .next (replied q .full .empty s) :=
  serve_refuses ready (if_pos full)

theorem commitTrials_commits {q : ReqHead} {s : State} (ready : Addressed q .commitTrials s)
    (room : s.offers.length + s.reservations.length + s.trials.length ≤ 64) :
    let c := commitEach s.trials.reverse { st := { took .fwd s with trials := [] }, converted := 0, discarded := 0 }
    let t :=
      { c.st with
        pendingClear := false
        origRet := s.origRet ++ [.reply q.tag s.position .ok (.committed c.converted c.discarded)] }
    exec (.commitTrials q) s = .next (if 0 < c.discarded then endEvent s (capacityFreed t) else t) := by
  dsimp only
  change Host.Outcome.next (serve q _ actCommitTrials s) = _
  have act : actCommitTrials (took .fwd s) = _ := if_neg (Nat.not_lt.2 room)
  rw [show (took .fwd s).trials = s.trials from rfl] at act
  have only := commitEach_only s.trials.reverse { st := { took .fwd s with trials := [] }, converted := 0, discarded := 0 }
  generalize commitEach s.trials.reverse { st := { took .fwd s with trials := [] }, converted := 0, discarded := 0 } = c at act only ⊢
  have origRet : c.st.origRet = s.origRet := by rw [only]; rfl
  have position : c.st.position = s.position := by rw [only]; rfl
  by_cases some : 0 < c.discarded
  · dsimp only at act
    rw [if_pos some] at act
    rw [if_pos some, serve_freed ready act, origRet, position]
  · dsimp only at act
    rw [if_neg some] at act
    rw [if_neg some, serve_next ready act (by rw [only]; rfl), origRet, position]

/-- Settles O48: the two requests as they are served, the counts by induction on the stack, and one trial by its test. -/
theorem undoAndCommitTrialsAnswer : Obligations.UndoAndCommitTrialsAnswer := by
  refine ⟨fun q s ready => undo_answers ready, fun q s ready => ⟨commitTrials_full ready, fun room => ?_⟩,
    fun h rest c => ⟨?_, makeReserved_self c.st h, by rw [makeReserved_only]⟩⟩
  · have counts := commitEach_counts s.trials.reverse
      { st := { took .fwd s with trials := [] }, converted := 0, discarded := 0 }
    have only := commitEach_only s.trials.reverse
      { st := { took .fwd s with trials := [] }, converted := 0, discarded := 0 }
    refine ⟨commitTrials_commits ready room, by rw [only], ?_, counts.2⟩
    rw [counts.1, List.length_reverse]; exact Nat.zero_add _
  · simp only [← trialDiscarded_iff]; rfl

end Sys2Proof.Machine

namespace Sys2Proof.Machine

/-! # Records freed one after another (O35, O36) -/

/-! ## What stands beside the records -/

theorem SameEntries.trans {s t u : State} (a : SameEntries s t) (b : SameEntries t u) : SameEntries s u :=
  ⟨b.1.trans a.1, b.2.trans a.2⟩

theorem SameEntries.of_lanes {s t : State} (base : t.rangeBase = s.rangeBase) (lanes : t.lanes = s.lanes) : SameEntries s t :=
  ⟨base, by rw [lanes]⟩

theorem sameEntries_setOccupants (s : State) (l : Lane) (o : List Handle) : SameEntries s (setOccupants s l o) := by
  refine ⟨by rw [setOccupants_only], ?_⟩
  unfold setOccupants; rw [modifySlot_lanes]; split
  · exact map_modify_same (fun x : LaneSlot => (x.entry, x.suspect)) (fun x => { x with occupants := o }) (fun _ => rfl) _ _
  · rfl

theorem sameEntries_unlist (s : State) (h : Handle) : SameEntries s (unlist s h) := by
  cases e : (getRec s h).lane with
  | none => unfold unlist; rw [e]; exact .of_lanes rfl rfl
  | some l =>
    rw [unlist_eq e, compact_only]
    exact sameEntries_setOccupants (setRec s h { getRec s h with offset := none, centre := none }) l _

theorem sameEntries_freeRec (s : State) (h : Handle) : SameEntries s (freeRec s h) := by
  by_cases live : isLive (getRec s h).state = true
  · refine (sameEntries_unlist s h).trans (.of_lanes ?_ ?_) <;> unfold freeRec <;> rw [if_pos live] <;> rfl
  · rw [freeRec_dead (by simpa using live)]; exact .of_lanes rfl rfl

theorem sameEntries_freeAll (hs : List Handle) : ∀ s : State, SameEntries s (freeAll hs s) := by
  induction hs with
  | nil => exact fun s => .of_lanes rfl rfl
  | cons h t ih => exact fun s => (sameEntries_freeRec s h).trans (ih _)

theorem sameProfile_freeAll (hs : List Handle) : ∀ s : State, SameProfile s (freeAll hs s) := by
  induction hs with
  | nil => exact .refl
  | cons h t ih => exact fun s => (sameProfile_freeRec s h).trans (ih _)

/-- Freeing reads no list of offers, reservations or trials. -/
theorem freeAll_lists (hs : List Handle) : ∀ (s : State) (o r t : List Handle),
    freeAll hs { s with offers := o, reservations := r, trials := t }
      = { freeAll hs s with offers := o, reservations := r, trials := t } := by
  induction hs with
  | nil => exact fun _ _ _ _ => rfl
  | cons h t ih => intro s o r q; rw [freeAll, freeRec_lists, ih]; rfl

theorem freeAll_append (a b : List Handle) : ∀ s : State, freeAll (a ++ b) s = freeAll b (freeAll a s) := by
  induction a with
  | nil => exact fun _ => rfl
  | cons h t ih => exact fun s => ih (freeRec s h)

theorem freeAll_departures (hs : List Handle) : ∀ s : State,
    (freeAll hs s).departures = s.departures.filter fun h => decide (h ∉ hs) := by
  induction hs with
  | nil => intro s; simp [freeAll]
  | cons h t ih =>
    intro s
    rw [freeAll, ih, freeRec_departures, List.filter_filter]
    refine List.filter_congr fun g _ => ?_
    by_cases gh : g = h <;> simp [gh]

/-! ## The records freed, and the others -/

/-- A record freed is FREE, without a description and a count, whatever is freed after it. -/
theorem freeAll_freed (hs : List Handle) : ∀ (s : State) (g : Handle), g ∈ hs →
    (getRec (freeAll hs s) g).state = .free ∧ (getRec (freeAll hs s) g).desc = none
      ∧ (getRec (freeAll hs s) g).deadline = none := by
  induction hs with
  | nil => intro s g hg; cases hg
  | cons h t ih =>
    intro s g hg
    by_cases later : g ∈ t
    · exact ih (freeRec s h) g later
    · have gh : g = h := (List.mem_cons.1 hg).resolve_right later
      obtain ⟨o, c, k, e⟩ := freeAll_eta t (freeRec s h) g later
      rw [gh, freeRec_self] at e
      rw [freeAll, gh, e]; exact ⟨rfl, rfl, rfl⟩

/-- Every listed record is live and names the lane that lists it, and no list repeats a handle. -/
structure ListedWell (s : State) : Prop where
  home : ListedAtHome s
  once : ∀ l, (occupantsOf s l).Nodup

theorem MapAgrees.listedWell {s : State} (m : MapAgrees s) : ListedWell s := ⟨m.listedAtHome, m.once⟩

theorem ListedWell.listedOnce {s : State} (w : ListedWell s) : ListedOnce s := ⟨fun l g h => (w.home l g h).2, w.once⟩

theorem ListedWell.freeRec_occupants {s : State} (w : ListedWell s) (h : Handle) (l : Lane) :
    occupantsOf (freeRec s h) l = (occupantsOf s l).filter (· != h) :=
  Machine.freeRec_occupants h (fun m hm => w.home m h hm) l

theorem ListedWell.freeRec {s : State} (w : ListedWell s) (h : Handle) : ListedWell (freeRec s h) :=
  ⟨w.home.free h, fun l => by rw [w.freeRec_occupants]; exact (w.once l).filter _⟩

/-- The freed records leave their lanes' lists, and every other occupant stays in its order (R42). -/
theorem freeAll_occupants (hs : List Handle) : ∀ {s : State}, ListedWell s → ∀ l,
    occupantsOf (freeAll hs s) l = (occupantsOf s l).filter fun h => decide (h ∉ hs) := by
  induction hs with
  | nil => intro s _ l; simp [freeAll]
  | cons h t ih =>
    intro s w l
    rw [freeAll, ih (w.freeRec h), w.freeRec_occupants, List.filter_filter]
    refine List.filter_congr fun g _ => ?_
    by_cases gh : g = h <;> simp [gh]

theorem freeAll_blank_of_mem {hs : List Handle} {s : State} (w : ListedWell s) {g : Handle} (hg : g ∈ hs) :
    getRec (freeAll hs s) g = freeRecord := (freeAll_blank hs s w.home g (.inl hg)).1

/-- A record that no lane lists stands. -/
theorem freeAll_offList (hs : List Handle) : ∀ {s : State}, ListedWell s → ∀ g, g ∉ hs → (∀ l, g ∉ occupantsOf s l) →
    getRec (freeAll hs s) g = getRec s g := by
  induction hs with
  | nil => exact fun _ _ _ _ => rfl
  | cons h t ih =>
    intro s w g hg off
    rw [List.mem_cons, not_or] at hg
    rw [freeAll, ih (w.freeRec h) g hg.2 fun l m => off l ?_, freeRec_offList s h g hg.1 off]
    rw [w.freeRec_occupants] at m; exact (List.mem_filter.1 m).1

theorem PendingPacked.freeAll {s : State} (p : PendingPacked s) (w : ListedWell s) (hs : List Handle) :
    PendingPacked (freeAll hs s) := by
  induction hs generalizing s with
  | nil => exact p
  | cons h t ih =>
    refine ih (p.freeRec w.listedOnce fun dead l listed => ?_) (w.freeRec h)
    rw [(w.home l h listed).1] at dead; cases dead

/-! ## What packing anew does to another record -/

/-- A record stands, or packing has moved it: its centre arm is computed anew and CHANGED is set (R32, R37). -/
def StandsOrMoved (s t : State) (g : Handle) : Prop :=
  getRec t g = getRec s g ∨ ∃ (l : Lane) (o : Nat), (getRec s g).lane = some l
    ∧ getRec t g =
      { getRec s g with
        offset := some o, changed := true, centre := some (centreArm (stopArmOf s l) o (recLength (getRec s g))) }

theorem StandsOrMoved.trans {s t u : State} {g : Handle} (a : StandsOrMoved s t g) (b : StandsOrMoved t u g)
    (stop : ∀ l, stopArmOf t l = stopArmOf s l) : StandsOrMoved s u g := by
  rcases b with same | ⟨l, o, lane, moved⟩
  · rcases a with e | ⟨l, o, lane, e⟩
    · exact .inl (same.trans e)
    · exact .inr ⟨l, o, lane, same.trans e⟩
  · rw [stop] at moved
    rcases a with e | ⟨l', o', lane', e⟩
    · rw [e] at moved lane; exact .inr ⟨l, o, lane, moved⟩
    · rw [e] at moved lane; exact .inr ⟨l, o, lane, moved⟩

theorem Unlisted.standsOrMoved {s t : State} {h : Handle} {l : Lane} (p : Unlisted s t h l) (lo : ListedOnce s) {g : Handle}
    (gh : g ≠ h) : StandsOrMoved s t g := by
  by_cases same : (getRec t g).offset = (getRec s g).offset
  · exact .inl (p.stays (lo.once l) g gh same)
  · obtain ⟨changed, o, offset, centre⟩ := p.moves (lo.once l) g gh same
    have listed : g ∈ occupantsOf s l := by_contra fun off => same (by rw [p.elsewhere g gh off])
    have e := eta_of (p.eta g gh)
    rw [changed, offset, centre] at e
    exact .inr ⟨l, o, lo.home l g listed, e⟩

theorem getRec_freeRec_other (s : State) {h g : Handle} (gh : g ≠ h) :
    getRec (freeRec s h) g = getRec (if isLive (getRec s h).state then unlist s h else s) g :=
  (getRec_congr rfl g).trans (getRec_setRec_other _ freeRecord gh)

theorem freeRec_standsOrMoved {s : State} (lo : ListedOnce s) {h g : Handle} (gh : g ≠ h) :
    StandsOrMoved s (freeRec s h) g := by
  cases e : (getRec s h).lane with
  | some l =>
    by_cases live : isLive (getRec s h).state = true
    · exact (freeRec_unlisted live e).standsOrMoved lo gh
    · exact .inl (by rw [getRec_freeRec_other s gh, if_neg live])
  | none =>
    have same : unlist s h = s := by unfold unlist; rw [e]
    exact .inl (by rw [getRec_freeRec_other s gh, same, ite_self])

theorem freeAll_standsOrMoved (hs : List Handle) : ∀ {s : State}, ListedWell s → ∀ g, g ∉ hs →
    StandsOrMoved s (freeAll hs s) g := by
  induction hs with
  | nil => exact fun _ _ _ => .inl rfl
  | cons h t ih =>
    intro s w g hg
    rw [List.mem_cons, not_or] at hg
    refine (freeRec_standsOrMoved w.listedOnce hg.1).trans (ih (w.freeRec h) g hg.2) fun l => ?_
    unfold stopArmOf; rw [(sameProfile_freeRec s h).entryOf]

/-! ## The withdrawals of SEAL and ABORT -/

theorem withdrawOffers_eq (s : State) : withdrawOffers s =
    { freeAll s.offers s with offers := [], reservations := s.reservations, trials := s.trials } :=
  freeAll_lists s.offers s [] s.reservations s.trials

theorem freeReservations_eq (s : State) (o r t : List Handle) :
    freeReservations { s with offers := o, reservations := r, trials := t }
      = { freeAll r s with offers := o, reservations := [], trials := t } := freeAll_lists r s o [] t

theorem discardTrials_eq (s : State) (o r t : List Handle) :
    discardTrials { s with offers := o, reservations := r, trials := t }
      = { freeAll t s with offers := o, reservations := r, trials := [] } := freeAll_lists t s o r []

/-- ABORT's withdrawal: offers and trials freed, and their lists emptied (R159). -/
theorem withdrawTentative_eq (s : State) : discardTrials (withdrawOffers s) =
    { freeAll (s.offers ++ s.trials) s with offers := [], reservations := s.reservations, trials := [] } := by
  rw [withdrawOffers_eq, freeAll_append]
  exact discardTrials_eq (freeAll s.offers s) [] s.reservations s.trials

/-- SEAL's withdrawal: offers, reservations and trials freed, and their lists emptied (R153). -/
theorem withdrawPending_eq (s : State) : discardTrials (freeReservations (withdrawOffers s)) =
    { freeAll (s.offers ++ s.reservations ++ s.trials) s with offers := [], reservations := [], trials := [] } := by
  have reserved := freeReservations_eq (freeAll s.offers s) [] s.reservations s.trials
  rw [withdrawOffers_eq, reserved, freeAll_append, freeAll_append]
  exact discardTrials_eq (freeAll s.reservations (freeAll s.offers s)) [] [] s.trials

/-! ## SEAL (O35) -/

/-- Where map and lists agree, an occupant is off the three pending lists exactly where it is ABOARD (R29). -/
theorem MapAgrees.off_pending {s : State} (m : MapAgrees s) {l : Lane} {h : Handle} (listed : h ∈ occupantsOf s l) :
    decide (h ∉ s.offers ++ s.reservations ++ s.trials) = isAboard s h := by
  have live := ((m.listed l h).1 listed).1
  unfold isAboard
  rw [Bool.eq_iff_iff, decide_eq_true_eq, beq_iff_eq, List.mem_append, List.mem_append, m.offered, m.reserved, m.trial]
  revert live
  cases (getRec s h).state <;> decide

/-- Records freed that are in a pending state: the ABOARD and LEFT ones stand, and so does the order of departure. -/
theorem freeAll_stands {s : State} (m : MapAgrees s) {hs : List Handle}
    (pending : ∀ g ∈ hs, (getRec s g).state ≠ .aboard ∧ (getRec s g).state ≠ .left) :
    (freeAll hs s).departures = s.departures
      ∧ ∀ h, (getRec s h).state = .aboard ∨ (getRec s h).state = .left → getRec (freeAll hs s) h = getRec s h := by
  refine ⟨?_, fun h state => ?_⟩
  · rw [freeAll_departures, List.filter_eq_self]
    exact fun g hg => decide_eq_true fun freed => (pending g freed).2 ((m.left g).1 hg)
  · rcases state with aboard | left
    · exact freeAll_aboard hs s h (fun freed => (pending h freed).1 aboard) (by unfold isAboard; rw [aboard]; rfl)
    · exact freeAll_offList hs m.listedWell h (fun freed => (pending h freed).2 left)
        (m.not_listed (by rw [left]; rfl))

/-- What SEAL does in OPEN (R153). -/
theorem actSeal_open {s : State} (open_ : s.voyage = .opened) : actSeal s =
    { freeAll (s.offers ++ s.reservations ++ s.trials) { s with voyage := .closed } with
      offers := [], reservations := [], trials := []
      holds := if s.role = Role.head ∨ s.role = Role.sole then [] else s.holds
      origFwd := s.origFwd ++ (if s.role = Role.head ∨ s.role = Role.sole then
        s.holds.map (fun e => Frame.shutOut (descMark e.desc) ShutReason.sealed) else []) } := by
  unfold actSeal
  rw [if_pos open_, withdrawPending_eq, shutHolds_eq]
  dsimp only
  rw [freeAll_only]

/-- A fast order that is ready is passed down and takes its effect, where it sets no flag. -/
theorem takeOrder_ready {f : Frame} {act : State → State} {s : State} (ready : Ready .fwd f s)
    (quiet : (act (passDown (took .fwd s) f)).notices = s.notices) :
    takeOrder f act s = act (passDown (took .fwd s) f) := by
  unfold takeOrder
  rw [takeFrame_ready ready rfl]
  exact endEvent_same quiet

theorem sealOrder_open {s : State} (ready : Ready .fwd .sealOrder s) (open_ : s.voyage = .opened) :
    exec .sealOrder s = .next
      { freeAll (s.offers ++ s.reservations ++ s.trials) { s with
          rxFwd := s.rxFwd.tail, passFwd := s.passFwd ++ [.sealOrder], voyage := .closed } with
        offers := [], reservations := [], trials := []
        holds := if s.role = Role.head ∨ s.role = Role.sole then [] else s.holds
        origFwd := s.origFwd ++ (if s.role = Role.head ∨ s.role = Role.sole then
          s.holds.map (fun e => Frame.shutOut (descMark e.desc) ShutReason.sealed) else []) } := by
  have sealed := actSeal_open (s := passDown (took .fwd s) .sealOrder) open_
  change Host.Outcome.next (takeOrder .sealOrder actSeal s) = _
  rw [takeOrder_ready ready (by rw [sealed, freeAll_only]; rfl), sealed]; rfl

/-- The members of the three pending lists are pending. -/
theorem MapAgrees.pending {s : State} (m : MapAgrees s) :
    ∀ g ∈ s.offers ++ s.reservations ++ s.trials, (getRec s g).state ≠ .aboard ∧ (getRec s g).state ≠ .left := by
  intro g hg
  rw [List.mem_append, List.mem_append, m.offered, m.reserved, m.trial] at hg
  revert hg
  cases (getRec s g).state <;> decide

/-- Settles O35: the records of the three pending lists are freed one after another. -/
theorem sealWithdrawsEverythingPending : Obligations.SealWithdrawsEverythingPending := by
  intro s ready
  by_cases open_ : s.voyage = .opened
  · set y : State := { s with rxFwd := s.rxFwd.tail, passFwd := s.passFwd ++ [.sealOrder], voyage := .closed } with hy
    have agrees (m : MapAgrees s) : MapAgrees y := m.of_same (fun _ => ⟨rfl, rfl⟩) (fun _ => rfl) rfl rfl rfl rfl
    have mem (h : Handle) : h ∈ s.offers ++ s.reservations ++ s.trials ↔ h ∈ s.offers ∨ h ∈ s.reservations ∨ h ∈ s.trials := by
      rw [List.mem_append, List.mem_append, or_assoc]
    refine ⟨_, sealOrder_open ready open_, fun shut => absurd open_ shut, fun _ => ⟨?_, sameEntries_freeAll _ y,
      fun h freed => freeAll_freed _ y h ((mem h).2 freed), fun h o r t aboard => freeAll_aboard _ y h ?_ aboard,
      fun m => ⟨fun l => ?_, (freeAll_stands (agrees m) m.pending).1,
        fun h freed => freeAll_blank_of_mem (agrees m).listedWell ((mem h).2 freed),
        (freeAll_stands (agrees m) m.pending).2⟩⟩⟩
    · dsimp only; rw [freeAll_only]
    · exact fun listed => by rcases (mem h).1 listed with x | x | x <;> contradiction
    · exact (freeAll_occupants _ (agrees m).listedWell l).trans (List.filter_congr fun g hg => m.off_pending hg)
  · have same : actSeal (passDown (took .fwd s) .sealOrder) = passDown (took .fwd s) .sealOrder := if_neg open_
    refine ⟨_, ?_, fun _ => rfl, fun open' => absurd open' open_⟩
    change Host.Outcome.next (takeOrder .sealOrder actSeal s) = _
    rw [takeOrder_ready ready (by rw [same]; rfl), same]; rfl

/-! ## ABORT (O36) -/

/-- The frame of an abandoned report, by role and report state (R173). -/
theorem abortedFrames_eq (s : State) : abortedFrames s =
    if (s.role = Role.head ∨ s.role = Role.sole) ∧ s.reportState ≠ ReportState.idle then
      [Frame.reportAborted (serialInProgress s)] else [] := by
  unfold abortedFrames reportInProgress
  cases s.role <;> simp [bne_iff_ne]

/-- All that abandoning the report can do (R173, R186). -/
theorem abandonReport_eq (s : State) : abandonReport s =
    { s with
      buffer := [], emitting := false, heldToken := none
      origFwd := s.origFwd.filter (fun f => !isReportFrame f)
      origRet := s.origRet.filter (fun f => !isReportFrame f)
        ++ (if (s.role = Role.head ∨ s.role = Role.sole) ∧ s.reportState ≠ ReportState.idle then
          [Frame.reportAborted (serialInProgress s)] else [])
      reportState := .idle, reportTimer := none, report := none } := by
  unfold abandonReport; rw [emitAllRet_eq, abortedFrames_eq]; rfl

/-- What ABORT does (R159). -/
theorem actAbort_eq (s : State) : actAbort s =
    { freeAll (s.offers ++ s.trials) s with
      offers := [], trials := []
      holds := if s.role = Role.head ∨ s.role = Role.sole then [] else s.holds
      origFwd := (s.origFwd ++ (if s.role = Role.head ∨ s.role = Role.sole then
        s.holds.map (fun e => Frame.shutOut (descMark e.desc) ShutReason.aborted) else [])).filter (fun f => !isReportFrame f)
      origRet := s.origRet.filter (fun f => !isReportFrame f)
        ++ (if (s.role = Role.head ∨ s.role = Role.sole) ∧ s.reportState ≠ ReportState.idle then
          [Frame.reportAborted (serialInProgress s)] else [])
      reportState := .idle, reportTimer := none, report := none, emitting := false, buffer := [], heldToken := none
      pendingClear := false } := by
  unfold actAbort
  rw [withdrawTentative_eq, shutHolds_eq, abandonReport_eq, freeAll_only]; rfl

theorem abort_ready {s : State} (ready : Ready .fwd .abort s) :
    exec .abort s = .next (actAbort { s with rxFwd := s.rxFwd.tail, passFwd := s.passFwd ++ [.abort] }) := by
  change Host.Outcome.next (takeOrder .abort actAbort s) = _
  rw [takeOrder_ready ready (by rw [actAbort_eq, freeAll_only]; rfl)]; rfl

theorem MapAgrees.tentative {s : State} (m : MapAgrees s) :
    ∀ g ∈ s.offers ++ s.trials, (getRec s g).state ≠ .aboard ∧ (getRec s g).state ≠ .left := fun g hg =>
  m.pending g (by
    rw [List.mem_append] at hg ⊢
    exact hg.imp_left (List.mem_append_left _))

theorem isReportFrame_eq (f : Frame) : isReportFrame f = match f with
    | .sectionHeader _ _ _ _ _ _ | .reportRecords _ _ _ | .reportToken _ | .trailer _ _ => true
    | _ => false := by
  cases f <;> rfl

/-- Settles O36: the records of the offer list and the trial stack are freed one after another. -/
theorem abortWithdrawsWhatIsTentative : Obligations.AbortWithdrawsWhatIsTentative := by
  refine ⟨fun s ready => ?_, isReportFrame_eq⟩
  set y : State := { s with rxFwd := s.rxFwd.tail, passFwd := s.passFwd ++ [.abort] } with hy
  have agrees (m : MapAgrees s) : MapAgrees y := m.of_same (fun _ => ⟨rfl, rfl⟩) (fun _ => rfl) rfl rfl rfl rfl
  have mem (h : Handle) : h ∈ s.offers ++ s.trials ↔ h ∈ s.offers ∨ h ∈ s.trials := List.mem_append
  have off {h : Handle} (o : h ∉ s.offers) (t : h ∉ s.trials) : h ∉ s.offers ++ s.trials := by
    rw [mem, not_or]; exact ⟨o, t⟩
  refine ⟨_, (abort_ready ready).trans (congrArg _ (actAbort_eq y)), ?_, sameEntries_freeAll _ y,
    fun h freed => freeAll_freed _ y h ((mem h).2 freed), fun h o t aboard => freeAll_aboard _ y h (off o t) aboard,
    fun h o t => ?_, fun m => ⟨fun l => ?_, (freeAll_stands (agrees m) m.tentative).1,
      fun h freed => freeAll_blank_of_mem (agrees m).listedWell ((mem h).2 freed),
      (freeAll_stands (agrees m) m.tentative).2, fun p => ?_, fun h o t changed => ?_⟩⟩
  · dsimp only; rw [freeAll_only]; rfl
  · obtain ⟨o', c, k, e⟩ := freeAll_eta (s.offers ++ s.trials) y h (off o t)
    have read : (getRec (freeAll (s.offers ++ s.trials) y) h).state = (getRec s h).state
        ∧ (getRec (freeAll (s.offers ++ s.trials) y) h).desc = (getRec s h).desc
        ∧ (getRec (freeAll (s.offers ++ s.trials) y) h).deadline = (getRec s h).deadline := by
      rw [e]; exact ⟨rfl, rfl, rfl⟩
    exact read
  · refine (freeAll_occupants _ (agrees m).listedWell l).trans (List.filter_congr fun g _ => ?_)
    rw [decide_eq_decide, mem, not_or]
  · have packed : PendingPacked y := pendingPacked_congr (s := s) rfl (fun _ => rfl) (fun _ => rfl) p
    have freed := packed.freeAll (agrees m).listedWell (s.offers ++ s.trials)
    exact pendingPacked_congr (s := freeAll (s.offers ++ s.trials) y) rfl (fun _ => rfl) (fun _ => rfl) freed
  · exact (freeAll_standsOrMoved (s.offers ++ s.trials) (agrees m).listedWell h (off o t)).resolve_left changed

end Sys2Proof.Machine

namespace Sys2Proof.Machine

/-! # Report sections (O10) -/

/-! ## What composing leaves of the records (R168) -/

/-- A listed record once its section is composed under CHANGED (R168). -/
def settledRecord (r : UnitRec) : UnitRec := if r.state = .left then freeRecord else { r with changed := false }

theorem settledRecord_left {r : UnitRec} (h : r.state = .left) : settledRecord r = freeRecord := if_pos h

theorem settledRecord_other {r : UnitRec} (h : r.state ≠ .left) : settledRecord r = { r with changed := false } := if_neg h

theorem settledRecord_state (r : UnitRec) : (settledRecord r).state ≠ .left := by
  by_cases h : r.state = .left
  · rw [settledRecord_left h]; decide
  · rw [settledRecord_other h]; exact h

theorem settledRecord_settled (r : UnitRec) : settledRecord (settledRecord r) = settledRecord r := by
  rw [settledRecord_other (settledRecord_state r)]
  by_cases h : r.state = .left
  · rw [settledRecord_left h]; rfl
  · rw [settledRecord_other h]

/-- The order of departure without a record, where it is LEFT. -/
theorem settleChanged_eq (s : State) (h : Handle) : settleChanged s h =
    { setRec s h (settledRecord (getRec s h)) with
      departures := s.departures.filter fun g => !decide (g = h ∧ (getRec s h).state = .left) } := by
  unfold settleChanged
  by_cases left : (getRec s h).state = .left
  · have dead : isLive (getRec s h).state = false := by rw [left]; rfl
    have off : (fun g : Handle => g != h) = fun g => !decide (g = h ∧ (getRec s h).state = .left) := by
      funext g; simp [left, bne, Bool.beq_eq_decide_eq]
    rw [if_pos left, freeRec_dead dead, settledRecord_left left, off]
  · have all : s.departures.filter (fun g => !decide (g = h ∧ (getRec s h).state = .left)) = s.departures :=
      List.filter_eq_self.2 fun g _ => by simp [left]
    rw [if_neg left, settledRecord_other left, all, setRec_only]

theorem getRec_settleChanged (s : State) (h g : Handle) :
    getRec (settleChanged s h) g = if g = h then settledRecord (getRec s h) else getRec s g := by
  rw [settleChanged_eq]; exact getRec_setRec s h g _

theorem getRec_settleAllChanged (hs : List Handle) : ∀ (s : State) (g : Handle),
    getRec (settleAllChanged hs s) g = if g ∈ hs then settledRecord (getRec s g) else getRec s g := by
  induction hs with
  | nil => exact fun _ _ => rfl
  | cons h t ih =>
    intro s g
    rw [settleAllChanged, ih, getRec_settleChanged]
    by_cases gh : g = h
    · subst gh; simp only [if_true, settledRecord_settled, ite_self, List.mem_cons_self]
    · simp only [List.mem_cons, gh, false_or, if_false]

/-- Composing under CHANGED touches the unit table and the order of departure alone (R168). -/
theorem settleAllChanged_eq (hs : List Handle) : ∀ s : State, settleAllChanged hs s =
    { s with
      records := (settleAllChanged hs s).records
      departures := s.departures.filter fun h => !decide (h ∈ hs ∧ (getRec s h).state = .left) } := by
  induction hs with
  | nil =>
    intro s
    have all : s.departures.filter (fun h => !decide (h ∈ ([] : List Handle) ∧ (getRec s h).state = .left)) = s.departures :=
      List.filter_eq_self.2 fun g _ => by simp
    rw [all]; rfl
  | cons h t ih =>
    intro s
    have departures : (settleChanged s h).departures.filter
        (fun g => !decide (g ∈ t ∧ (getRec (settleChanged s h) g).state = .left))
          = s.departures.filter fun g => !decide (g ∈ h :: t ∧ (getRec s g).state = .left) := by
      rw [settleChanged_eq, List.filter_filter]
      refine List.filter_congr fun g _ => ?_
      rw [← settleChanged_eq, getRec_settleChanged]
      by_cases gh : g = h
      · subst gh; simp [settledRecord_state]
      · simp [gh]
    rw [settleAllChanged, ih, departures, settleChanged_eq]; rfl

theorem getRec_composeSection (s : State) (c : Criterion) (k : Token) (h : Handle) : getRec (composeSection s c k) h =
    if c = .changed ∧ h ∈ sectionHandles s c then settledRecord (getRec s h) else getRec s h := by
  have composed : getRec (composeSection s c k) h
      = getRec (if c = .changed then settleAllChanged (sectionHandles s c) s else s) h := getRec_congr rfl h
  rw [composed]
  by_cases ch : c = .changed
  · rw [if_pos ch, getRec_settleAllChanged]; simp only [ch, true_and]
  · rw [if_neg ch, if_neg fun x => ch x.1]

/-! ## What a section lists (R166, R167) -/

theorem criterionLists_eq (c : Criterion) (r : UnitRec) : criterionLists c r = match c with
    | .aboard => decide (r.state = .aboard)
    | .plan => decide (r.state = .aboard ∨ r.state = .reserved)
    | .changed => r.changed && decide (r.state ≠ .free)
    | .rank n => decide (r.state = .aboard ∧ recRank r = n) := by
  unfold criterionLists
  cases c <;> simp [Bool.beq_eq_decide_eq, bne]

theorem sectionHandles_eq (s : State) (c : Criterion) : sectionHandles s c =
    (laneSlots s).flatMap fun x =>
      x.2.occupants.filter (fun h => criterionLists c (getRec s h))
        ++ (s.departures.filter fun h => decide ((getRec s h).lane = some x.1)).filter
          fun h => criterionLists c (getRec s h) := by
  unfold sectionHandles
  simp only [List.filter_append, Bool.beq_eq_decide_eq]

/-! ## What a section's frames carry (R167, R170) -/

/-- The lane of the entry before the i-th, `prev` before the first. -/
def laneBefore (prev : Option Lane) (es : List ReportEntry) : Nat → Option Lane
  | 0 => prev
  | i + 1 => es[i]?.map ReportEntry.lane

theorem markRuns_getElem? (es : List ReportEntry) : ∀ (prev : Option Lane) (i : Nat),
    (markRuns prev es)[i]? = es[i]?.map fun e => (laneBefore prev es i != some e.lane, e) := by
  induction es with
  | nil => exact fun _ _ => rfl
  | cons e t ih =>
    intro prev i
    cases i with
    | zero => rfl
    | succ i =>
      rw [markRuns, List.getElem?_cons_succ, List.getElem?_cons_succ, ih]
      cases i <;> rfl

theorem markRuns_snd (es : List ReportEntry) : ∀ prev : Option Lane, (markRuns prev es).map Prod.snd = es := by
  induction es with
  | nil => exact fun _ => rfl
  | cons e t ih => intro prev; rw [markRuns, List.map_cons, ih]

/-- An entry begins a run where it is the first of its frame or its lane is not that of the entry before (R170). -/
theorem markRuns_begins {es : List ReportEntry} {i : Nat} {b : Bool} {e : ReportEntry}
    (h : (markRuns none es)[i]? = some (b, e)) : b = true ↔ i = 0 ∨ ∀ e', es[i - 1]? = some e' → e'.lane ≠ e.lane := by
  rw [markRuns_getElem?] at h
  obtain ⟨e', -, eq⟩ := Option.map_eq_some_iff.1 h
  cases eq
  cases i with
  | zero => simp [laneBefore]
  | succ i =>
    rw [bne_iff_ne, laneBefore, Nat.add_sub_cancel]
    cases es[i]? <;> simp

theorem aboardPart_eq (s : State) (o : List Handle) :
    aboardPart s o = o.filter fun h => decide ((getRec s h).state = .aboard) := by
  have same : isAboard s = fun h => decide ((getRec s h).state = .aboard) := by
    funext h; exact Bool.beq_eq_decide_eq ..
  unfold aboardPart; rw [same]

/-- A sum over the lanes of a deck, taken over all lanes with 0 for the others. -/
theorem sum_map_ite_eq_filter {α : Type} (p : α → Bool) (f : α → Nat) (l : List α) :
    (l.map fun x => if p x = true then f x else 0).sum = ((l.filter p).map f).sum := by
  induction l with
  | nil => rfl
  | cons x t ih =>
    rw [List.map_cons, List.sum_cons, ih, List.filter_cons]
    split
    · rw [List.map_cons, List.sum_cons]
    · rw [Nat.zero_add]

theorem commDeckMass_eq (s : State) (d : Nat) : commDeckMass s d =
    (((definedLanes s).filter fun x => x.2.deck == d).map fun x =>
      (((occupantsOf s x.1).filter fun h => decide ((getRec s h).state = .aboard)).map fun h => recMass (getRec s h)).sum).sum := by
  rw [← sum_map_ite_eq_filter]
  unfold commDeckMass commMass sumNat
  simp only [beq_iff_eq, aboardPart_eq]

theorem sectionFrame_eq (s : State) (serial : Byte) (count : Nat) :
    let aboard := fun l => (occupantsOf s l).filter fun h => decide ((getRec s h).state = .aboard)
    let total := fun (f : LaneEntry → Handle → Int) => ((definedLanes s).map fun x => ((aboard x.1).map (f x.2)).sum).sum
    sectionFrame s serial count = .sectionHeader serial s.position count
      (s.heelOffset + total fun e h => (recMass (getRec s h) : Int) * e.arm)
      (s.trimOffset + total fun _ h => (recMass (getRec s h) : Int) * (getRec s h).centre.getD 0)
      (s.decks.map fun d => (d.1,
        (((definedLanes s).filter fun x => x.2.deck == d.1).map fun x =>
          ((aboard x.1).map fun h => recMass (getRec s h)).sum).sum)) := by
  unfold sectionFrame commHeel commTrim
  simp only [commDeckMass_eq, aboardPart_eq]; rfl

theorem entryOfRec_of_desc {r : UnitRec} {u : UnitDesc} (h : r.desc = some u) : entryOfRec r =
    { mark := u.mark, kind := u.kind, rank := u.rank, state := r.state, lane := r.lane.getD 0, offset := r.offset
      mass := u.mass, forced := r.forced, defaulted := r.defaulted } := by
  unfold entryOfRec recMark recKind recRank recMass; rw [h]; rfl

/-! ## How a section's frames leave (R169, R171, R186) -/

theorem arbiterChoice_originated {pass orig : List Frame} {last : SendKind} {f : Frame} (h : pass = [] ∨ last = .pass) :
    arbiterChoice pass (f :: orig) last = some .originated := by
  rcases h with rfl | rfl
  · rfl
  · cases pass <;> rfl

/-- An originated frame leaves return out, and the report moves on. -/
theorem sendRet_originated {s : State} {f : Frame} {t : List Frame} (queue : s.origRet = f :: t)
    (turn : s.passRet = [] ∨ s.lastRet = .pass) :
    sendRet s = reportSent { s with origRet := t, lastRet := .originated, drivenRet := some (driven f) } f := by
  unfold sendRet
  rw [queue, arbiterChoice_originated turn]

/-- What follows a section frame that has left, by the buffer then held and the role (R169, R171). -/
theorem advanceSection_eq {s : State} {k : Token} (held : s.heldToken = some k) : advanceSection s =
    if s.buffer = [] then
      match s.role with
      | .head =>
        { s with origFwd := s.origFwd ++ [.reportToken k], emitting := false, heldToken := none, reportState := .awaiting
                 reportTimer := some 100 }
      | .mid => { s with origFwd := s.origFwd ++ [.reportToken k], emitting := false, heldToken := none }
      | .tail => { s with origRet := s.origRet ++ [.trailer k.serial k.count], emitting := false, heldToken := none }
      | .sole => { s with origRet := s.origRet ++ [.trailer k.serial k.count], emitting := false, heldToken := none }
    else { s with origRet := s.origRet ++ [.reportRecords k.serial s.position (markRuns none (s.buffer.take 6))] } := by
  have step : advanceSection s = if s.buffer.isEmpty then passToken s k else emitRet s (recordsFrame s k.serial) := by
    unfold advanceSection; rw [held]
  rw [step]
  simp only [List.isEmpty_iff]
  split
  · unfold passToken; cases s.role <;> rfl
  · rfl

/-- A section frame that leaves takes its entries off the buffer (log 18), and moves the section on. -/
theorem reportSent_section {s : State} {f : Frame} (emitting : s.emitting = true) (own : isSectionFrame f = true) :
    reportSent s f = advanceSection { s with buffer := match f with
      | .reportRecords _ _ _ => s.buffer.drop 6
      | _ => s.buffer } := by
  cases f with
  | sectionHeader _ _ _ _ _ _ => exact if_pos emitting
  | reportRecords _ _ _ => exact if_pos emitting
  | _ => cases own

/-- Settles O10: the composing by what settles each record, the frames by their figures, and the departure by the frame. -/
theorem sectionsAreComposedAndSent : Obligations.SectionsAreComposedAndSent := by
  refine ⟨fun s c k => ⟨?_, rfl, rfl, rfl, fun other => ?_, fun ch => ?_, fun ch h listed left => ?_,
      fun ch h listed other => ?_, fun h off => ?_⟩,
    fun s serial count r u es => ⟨entryOfRec_of_desc, markRuns_snd es none, fun i b e => markRuns_begins,
      sectionFrame_eq s serial count⟩,
    fun s f t k power emitting held queue turn own => ?_⟩
  · rw [sectionHandles_eq]; simp only [criterionLists_eq] <;> rfl
  · unfold composeSection; simp only [if_neg other]
  · unfold composeSection; simp only [if_pos ch]; rw [settleAllChanged_eq]
  · rw [getRec_composeSection, if_pos ⟨ch, listed⟩, settledRecord_left left]
  · rw [getRec_composeSection, if_pos ⟨ch, listed⟩, settledRecord_other other]
  · rw [getRec_composeSection, if_neg fun x => off x.2]
  · have sent : exec (.arbiterSend .ret false) s = .next (sendRet s) := by
      change execArbiterSend .ret false s = _
      unfold execArbiterSend; rw [power]; rfl
    have moved := reportSent_section
      (s := { s with origRet := t, lastRet := .originated, drivenRet := some (driven f) }) emitting own
    rw [sent, sendRet_originated queue turn, moved, advanceSection_eq (k := k)]
    · cases f with
      | sectionHeader _ _ _ _ _ _ => rfl
      | reportRecords _ _ _ => rfl
      | _ => cases own
    · exact held

end Sys2Proof.Machine


namespace Sys2Proof.Machine

/-! ## The reads of the Stow Map and EVALUATE (O46) -/

/-! ### What each request is answered with -/

theorem readUnit_handle {q : ReqHead} {h : Handle} {s : State} (a : Addressed q (.readUnit (.handle h)) s) :
    exec (.readUnit q (.handle h)) s = .next
      (if 511 < h then replied q .badField .empty s
      else replied q .ok (.unitRecord h (getRec s h) (placeOf s h) none) s) := by
  change Host.Outcome.next (serve q _ (actReadUnit (.handle h)) s) = _
  by_cases high : 511 < h
  · rw [if_pos high]
    exact serve_refuses a (if_pos (Nat.succ_le_of_lt high))
  · rw [if_neg high]
    exact serve_answers a (if_neg fun le => high (Nat.lt_of_succ_le le))

theorem readUnit_mark {q : ReqHead} {m : Mark} {s : State} (a : Addressed q (.readUnit (.mark m)) s) :
    exec (.readUnit q (.mark m)) s = .next
      (match findHolder s m, findTrial s m, findLeft s m with
      | some h, t, _ => replied q .ok (.unitRecord h (getRec s h) (placeOf s h) t) s
      | none, some t, _ => replied q .ok (.unitRecord t (getRec s t) (placeOf s t) none) s
      | none, none, some h => replied q .ok (.unitRecord h (getRec s h) (placeOf s h) none) s
      | none, none, none => replied q .noSuch .empty s) := by
  change Host.Outcome.next (serve q _ (readMark · m) s) = _
  have act : readMark (took .fwd s) m =
      match findHolder s m, findTrial s m, findLeft s m with
      | some h, t, _ => unitReply (took .fwd s) h t
      | none, some t, _ => unitReply (took .fwd s) t none
      | none, none, some h => unitReply (took .fwd s) h none
      | none, none, none => refuse (took .fwd s) .noSuch := rfl
  cases holder : findHolder s m with
  | some h => exact serve_answers a (by rw [act, holder]; rfl)
  | none =>
    cases trial : findTrial s m with
    | some t => exact serve_answers a (by rw [act, holder, trial]; rfl)
    | none =>
      cases left : findLeft s m with
      | some h => exact serve_answers a (by rw [act, holder, trial, left]; rfl)
      | none => exact serve_refuses a (by rw [act, holder, trial, left])

theorem readLane_answers {q : ReqHead} {l : Lane} {n : Nat} {s : State} (a : Addressed q (.readLane l n) s) :
    exec (.readLane q l n) s = .next
      (if inRange s l = false then replied q .noSuch .empty s
      else if n < 1 ∨ 40 < n then replied q .badField .empty s
      else
        match entryOf s l with
        | none => replied q .ok .laneUndefined s
        | some e => replied q .ok (.laneView (laneView s l e n)) s) := by
  change Host.Outcome.next (serve q _ (actReadLane l n) s) = _
  have act : actReadLane l n (took .fwd s) =
      if !inRange s l then refuse (took .fwd s) .noSuch
      else if n < 1 ∨ 40 < n then refuse (took .fwd s) .badField
      else
        match entryOf s l with
        | none => answer (took .fwd s) .laneUndefined
        | some e => answer (took .fwd s) (.laneView (laneView s l e n)) := rfl
  cases range : inRange s l with
  | false => exact serve_refuses a (by rw [act, range]; rfl)
  | true =>
    rw [if_neg Bool.true_eq_false_eq_False]
    rw [range] at act
    by_cases start : n < 1 ∨ 40 < n
    · rw [if_pos start]
      exact serve_refuses a (act.trans (if_pos start))
    · rw [if_neg start]
      cases entry : entryOf s l with
      | none => exact serve_answers a (act.trans ((if_neg start).trans (by rw [entry])))
      | some e => exact serve_answers a (act.trans ((if_neg start).trans (by rw [entry])))

theorem evaluate_lane {q : ReqHead} {d : Desc} {l : Lane} {s : State} (a : Addressed q (.evaluate d (some l)) s) :
    exec (.evaluate q d (some l)) s = .next
      (match entryOf s l, descExactUnit d with
      | none, _ => replied q .noSuch .empty s
      | some _, none => replied q .badField .empty s
      | some e, some u =>
        let p := tailPlacement s l e u
        let failed := tailFailures s l e u
        replied q .ok (.evalLane l failed p.offset p.fillAfter p.hAfter p.tAfter
          (if failed = [] then some (score s l e u) else none)) s) := by
  change Host.Outcome.next (serve q _ (actEvaluate d (some l)) s) = _
  have act : actEvaluate d (some l) (took .fwd s) =
      match entryOf s l with
      | none => refuse (took .fwd s) .noSuch
      | some e =>
        match descExactUnit d with
        | none => refuse (took .fwd s) .badField
        | some u => evaluateLane (took .fwd s) l e u := rfl
  cases entry : entryOf s l with
  | none => exact serve_refuses a (by rw [act, entry])
  | some e =>
    cases unit : descExactUnit d with
    | none => exact serve_refuses a (by rw [act, entry, unit])
    | some u =>
      refine serve_answers a ?_
      rw [act, entry, unit]
      simp only [← List.isEmpty_iff]
      rfl

theorem evaluate_all {q : ReqHead} {d : Desc} {s : State} (a : Addressed q (.evaluate d none) s) :
    exec (.evaluate q d none) s = .next
      (match descExactUnit d with
      | none => replied q .badField .empty s
      | some u =>
        match bestLane s u with
        | none => replied q .ok (.evalNone (definedLanes s).length (eligibleLanes s u).length) s
        | some b =>
          replied q .ok (.evalBest (definedLanes s).length (eligibleLanes s u).length b.lane b.score b.place.offset
            b.place.fillAfter b.place.hAfter b.place.tAfter) s) := by
  change Host.Outcome.next (serve q _ (actEvaluate d none) s) = _
  have act : actEvaluate d none (took .fwd s) =
      match descExactUnit d with
      | none => refuse (took .fwd s) .badField
      | some u => evaluateAll (took .fwd s) u := rfl
  cases unit : descExactUnit d with
  | none => exact serve_refuses a (by rw [act, unit])
  | some u =>
    have all : evaluateAll (took .fwd s) u =
        match bestLane s u with
        | none => answer (took .fwd s) (.evalNone (definedLanes s).length (eligibleLanes s u).length)
        | some b =>
          answer (took .fwd s) (.evalBest (definedLanes s).length (eligibleLanes s u).length b.lane b.score b.place.offset
            b.place.fillAfter b.place.hAfter b.place.tAfter) := rfl
    dsimp only
    cases best : bestLane s u with
    | none => exact serve_answers a (act.trans (by rw [unit]; exact all.trans (by rw [best])))
    | some b => exact serve_answers a (act.trans (by rw [unit]; exact all.trans (by rw [best])))

/-! ### The records a mark finds -/

theorem recHasMark_iff {m : Mark} {r : UnitRec} : recHasMark m r = true ↔ r.desc.map UnitDesc.mark = some m := beq_iff_eq

theorem isHolder_iff {st : RecState} : isHolder st = true ↔ st ∈ [RecState.offered, .reserved, .aboard] := by
  cases st <;> decide

theorem findTrial_some {s : State} (c : TablesCanonical s) {m : Mark} {h : Handle} (e : findTrial s m = some h) :
    (getRec s h).state = .trial ∧ recHasMark m (getRec s h) = true := by
  unfold findTrial at e
  obtain ⟨x, hx, rfl⟩ := Option.map_eq_some_iff.1 e
  rw [c.getRec_of_mem (List.mem_of_find?_eq_some hx)]
  simpa using List.find?_some hx

theorem findTrial_none {s : State} {m : Mark} (e : findTrial s m = none) (g : Handle) :
    ¬ ((getRec s g).state = .trial ∧ recHasMark m (getRec s g) = true) := by
  rintro ⟨state, mark⟩
  unfold getRec at state mark
  cases listed : Table.find s.records g with
  | none => rw [listed] at state; cases state
  | some r =>
    rw [listed] at state mark
    refine List.find?_eq_none.1 (Option.map_eq_none_iff.1 e) _ (Table.find_mem listed) ?_
    rw [Bool.and_eq_true, beq_iff_eq]
    exact ⟨state, mark⟩

/-- The departure found is the latest: none behind it in the order of departure is LEFT with the mark. -/
theorem findLeft_some {s : State} {m : Mark} {h : Handle} (e : findLeft s m = some h) :
    ((getRec s h).state = .left ∧ recHasMark m (getRec s h) = true)
      ∧ ∃ a b, s.departures = a ++ h :: b ∧ ∀ g ∈ b, ¬ ((getRec s g).state = .left ∧ recHasMark m (getRec s g) = true) := by
  obtain ⟨found, later, earlier, order, others⟩ := List.find?_eq_some_iff_append.1 e
  refine ⟨by simpa using found, earlier.reverse, later.reverse, ?_, fun g hg => ?_⟩
  · rw [← List.reverse_inj, order]; simp
  · simpa [imp_iff_not_or] using others g (List.mem_reverse.1 hg)

theorem findLeft_none {s : State} {m : Mark} (e : findLeft s m = none) {h : Handle} (mem : h ∈ s.departures) :
    ¬ ((getRec s h).state = .left ∧ recHasMark m (getRec s h) = true) := by
  simpa using List.find?_eq_none.1 e h (List.mem_reverse.2 mem)

/-! ### The defined lanes -/

theorem mem_definedLanes {s : State} {l : Lane} {e : LaneEntry} : (l, e) ∈ definedLanes s ↔ entryOf s l = some e := by
  refine ⟨entryOf_of_defined, fun entry => ?_⟩
  obtain ⟨x, slot, hx⟩ := Option.bind_eq_some_iff.1 entry
  unfold slotOf at slot
  split at slot
  case isFalse => cases slot
  case isTrue base =>
    refine List.mem_filterMap.2 ⟨(l, x), List.mem_map.2 ⟨(x, l - s.rangeBase), List.mk_mem_zipIdx_iff_getElem?.2 slot, ?_⟩, ?_⟩
    · rw [Nat.add_sub_cancel' base]
    · rw [hx]; rfl

theorem laneSlots_ascend (s : State) : (laneSlots s).Pairwise fun x y => x.1 < y.1 := by
  have places : (s.lanes.zipIdx.map Prod.snd).Pairwise (· < ·) := by
    rw [List.zipIdx_map_snd]; exact List.pairwise_lt_range' _
  unfold laneSlots
  rw [List.pairwise_map] at places ⊢
  exact places.imp fun lt => Nat.add_lt_add_left lt _

theorem definedLanes_ascend (s : State) : (definedLanes s).Pairwise fun x y => x.1 < y.1 := by
  refine (laneSlots_ascend s).filterMap _ fun x y lt v hv w hw => ?_
  obtain ⟨_, _, rfl⟩ := Option.map_eq_some_iff.1 hv
  obtain ⟨_, _, rfl⟩ := Option.map_eq_some_iff.1 hw
  exact lt

theorem mem_eligibleLanes {s : State} {u : UnitDesc} {l : Lane} {e : LaneEntry} : (l, e) ∈ eligibleLanes s u ↔
    (l, e) ∈ definedLanes s ∧ ∀ k, checkPasses s l e u (tailPlacement s l e u) k = true := by
  unfold eligibleLanes
  rw [List.mem_filter, tailFailures_isEmpty_iff]

/-! ### A lane's figures -/

/-- The aft end of a list, 0 with no occupant (R33). -/
theorem aftOf_getD (s : State) (o : List Handle) : (aftOf s o).getD 0 =
    match o.getLast? with
    | none => 0
    | some h => recOffset (getRec s h) + recLength (getRec s h) := by
  unfold aftOf
  cases o.getLast? <;> rfl

theorem commFill_eq (s : State) (l : Lane) : commFill s l =
    match ((occupantsOf s l).filter fun h => decide ((getRec s h).state = .aboard)).getLast? with
    | none => 0
    | some h => recOffset (getRec s h) + recLength (getRec s h) := by
  rw [← aboardPart_eq]
  exact aftOf_getD ..

theorem commMass_eq (s : State) (l : Lane) : commMass s l =
    (((occupantsOf s l).filter fun h => decide ((getRec s h).state = .aboard)).map fun h => recMass (getRec s h)).sum := by
  rw [← aboardPart_eq]
  rfl

theorem hoistHeld_iff {s : State} {l : Lane} : hoistHeld s l = true ↔
    ∃ x ∈ s.sections, (l ∈ x.2.hoist ∧ x.2.state ≠ .deployed)
      ∨ (l ∈ x.2.covered ∧ x.2.state ≠ .stowed ∧ x.2.state ≠ .deployed) := by
  unfold hoistHeld
  rw [bne_iff_ne, ne_eq, holders_nil_iff]
  simp only [sectionHolds_iff, not_forall, not_not, exists_prop]

theorem mem_reductions {s : State} {l : Lane} {n : Nat} : n ∈ reductions s l ↔
    ∃ x ∈ s.sections, l ∈ x.2.covered ∧ x.2.state ≠ .stowed ∧ n = x.2.reduced := by
  unfold reductions
  rw [List.mem_map]
  constructor
  · rintro ⟨x, hx, rfl⟩
    rw [List.mem_filter, Bool.and_eq_true, List.contains_iff_mem, bne_iff_ne] at hx
    obtain ⟨mem, covered, down⟩ := hx
    exact ⟨x, mem, covered, down, rfl⟩
  · rintro ⟨x, mem, covered, down, rfl⟩
    refine ⟨x, List.mem_filter.2 ⟨mem, ?_⟩, rfl⟩
    rw [Bool.and_eq_true, List.contains_iff_mem, bne_iff_ne]
    exact ⟨covered, down⟩

/-- The effective clearance is the least of the lane's own and the reductions in force (R55). -/
theorem effectiveClearance_least (s : State) (l : Lane) (own : Nat) :
    effectiveClearance s l own ∈ own :: reductions s l ∧ ∀ n ∈ own :: reductions s l, effectiveClearance s l own ≤ n :=
  List.min?_eq_some_iff.1 (rfl : (own :: reductions s l).min? = some (effectiveClearance s l own))

theorem occupantViews_length (s : State) (n : Nat) (o : List Handle) :
    (occupantViews s n o).length = min 6 (o.length - (n - 1)) := by
  unfold occupantViews
  rw [List.length_mapIdx, List.length_take, List.length_drop]

theorem occupantViews_getElem {s : State} {n i : Nat} {o : List Handle} {h : Handle} (few : i < 6)
    (at_ : o[n - 1 + i]? = some h) : (occupantViews s n o)[i]? = some (occupantView s (n + i) h) := by
  unfold occupantViews
  rw [List.getElem?_mapIdx, List.getElem?_take, if_pos few, List.getElem?_drop, at_]
  rfl

/-! ### The summary's figures -/

theorem projDeckMass_eq (s : State) (d : Nat) : projDeckMass s d =
    (((definedLanes s).filter fun x => x.2.deck == d).map fun x =>
      ((occupantsOf s x.1).map fun h => recMass (getRec s h)).sum).sum := by
  rw [← sum_map_ite_eq_filter]
  unfold projDeckMass projMass sumNat
  simp only [beq_iff_eq]

/-- A table's records by state. -/
theorem records_by_state (t : List (Nat × UnitRec)) :
    let count := fun st => t.countP fun e => e.2.state == st
    t.countP (fun e => isLive e.2.state) = count .offered + count .trial + count .reserved + count .aboard
      ∧ t.length = count .free + count .offered + count .trial + count .reserved + count .aboard + count .left := by
  induction t with
  | nil => exact ⟨rfl, rfl⟩
  | cons x t ih =>
    obtain ⟨live, all⟩ := ih
    simp only [List.countP_cons, List.length_cons, live, all]
    cases x.2.state <;> simp [isLive] <;> omega

theorem Table.risingFrom_keys {α : Type} {t : List (Nat × α)} {lo : Nat} (r : Table.risingFrom lo t = true) :
    (t.map Prod.fst).Pairwise (· < ·) := by
  induction t generalizing lo with
  | nil => exact .nil
  | cons x t ih =>
    rw [Table.risingFrom, Bool.and_eq_true] at r
    refine List.pairwise_cons.2 ⟨fun k hk => ?_, ih r.2⟩
    obtain ⟨y, hy, rfl⟩ := List.mem_map.1 hk
    exact Table.risingFrom_mem r.2 hy

/-- Over the handles 0..511, the records with a property that no FREE record has are the listed ones with it. -/
theorem handles_filter_perm {s : State} (c : TablesCanonical s) {p : UnitRec → Bool} (free : p freeRecord = false) :
    ((List.range Config.unitRecords).filter fun h => p (getRec s h)).Perm
      ((s.records.filter fun e => p e.2).map Prod.fst) := by
  have keys : (s.records.map Prod.fst).Nodup := (Table.risingFrom_keys c.records).nodup
  refine (List.perm_ext_iff_of_nodup (List.nodup_range.filter _) (keys.sublist (List.filter_sublist.map _))).2 fun h => ?_
  rw [List.mem_filter, List.mem_map]
  constructor
  · rintro ⟨-, holds⟩
    unfold getRec at holds
    cases listed : Table.find s.records h with
    | none => rw [listed, Option.getD_none, free] at holds; cases holds
    | some r =>
      rw [listed] at holds
      exact ⟨(h, r), List.mem_filter.2 ⟨Table.find_mem listed, holds⟩, rfl⟩
  · rintro ⟨e, he, rfl⟩
    obtain ⟨mem, holds⟩ := List.mem_filter.1 he
    exact ⟨List.mem_range.2 (c.handles e mem), by rw [c.getRec_of_mem mem]; exact holds⟩

theorem handles_count {s : State} (c : TablesCanonical s) {p : UnitRec → Bool} (free : p freeRecord = false) :
    ((List.range Config.unitRecords).filter fun h => p (getRec s h)).length = s.records.countP fun e => p e.2 := by
  rw [(handles_filter_perm c free).length_eq, List.length_map, List.countP_eq_length_filter]

theorem countState_eq {s : State} (c : TablesCanonical s) {st : RecState} (ne : st ≠ .free) : countState s st =
    ((List.range Config.unitRecords).filter fun h => decide ((getRec s h).state = st)).length :=
  (handles_count c (p := fun r => decide (r.state = st)) (decide_eq_false (Ne.symm ne))).symm

/-- The FREE records are those that the table does not list. -/
theorem free_count {s : State} (c : TablesCanonical s) (listed : ∀ x ∈ s.records, x.2.state ≠ .free) :
    ((List.range Config.unitRecords).filter fun h => decide ((getRec s h).state = .free)).length + s.records.length
      = Config.unitRecords := by
  have others := handles_count c (p := fun r => !decide (r.state = .free)) rfl
  have every : s.records.countP (fun e => !decide (e.2.state = .free)) = s.records.length :=
    List.countP_eq_length.2 fun x hx => by simpa using listed x hx
  have split := List.length_eq_length_filter_add (l := List.range Config.unitRecords)
    fun h => decide ((getRec s h).state = .free)
  rw [List.length_range, others, every] at split
  exact split.symm

/-! ### A record's place -/

theorem placeOf_eq_some_iff {s : State} {h : Handle} {p : Nat} : placeOf s h = some p ↔
    isLive (getRec s h).state = true ∧ 1 ≤ p ∧ ∃ l, (getRec s h).lane = some l ∧ (occupantsOf s l)[p - 1]? = some h
      ∧ ∀ i, i < p - 1 → (occupantsOf s l)[i]? ≠ some h := by
  unfold placeOf
  cases lane : (getRec s h).lane with
  | none => simp
  | some l =>
    cases live : isLive (getRec s h).state with
    | false => simp
    | true =>
      simp only [if_true, Option.map_eq_some_iff, List.findIdx?_eq_some_iff_getElem, true_and, Option.some.injEq,
        exists_eq_left', beq_iff_eq]
      constructor
      · rintro ⟨i, ⟨lt, here, first⟩, rfl⟩
        refine ⟨Nat.le_add_left .., List.getElem?_eq_some_iff.2 ⟨lt, here⟩, fun j hj there => ?_⟩
        obtain ⟨_, eq⟩ := List.getElem?_eq_some_iff.1 there
        exact first j hj eq
      · rintro ⟨pos, here, first⟩
        obtain ⟨lt, eq⟩ := List.getElem?_eq_some_iff.1 here
        exact ⟨p - 1, ⟨lt, eq, fun j hj there => first j hj (List.getElem?_eq_some_iff.2 ⟨_, there⟩)⟩,
          Nat.sub_add_cancel pos⟩

theorem generalAvailable_eq (s : State) : generalAvailable s =
    decide (countState s .offered + countState s .trial + countState s .reserved + countState s .aboard < 480) := by
  unfold generalAvailable liveCount countState
  rw [(records_by_state s.records).1]

theorem summary_decks (s : State) : (stowSummary s).decks = s.decks.map fun d => (d.1,
    (((definedLanes s).filter fun x => x.2.deck == d.1).map fun x =>
      ((occupantsOf s x.1).map fun h => recMass (getRec s h)).sum).sum,
    (((definedLanes s).filter fun x => x.2.deck == d.1).map fun x =>
      (((occupantsOf s x.1).filter fun h => decide ((getRec s h).state = .aboard)).map fun h =>
        recMass (getRec s h)).sum).sum) := by
  unfold stowSummary
  simp only [projDeckMass_eq, commDeckMass_eq]

theorem summary_committed (s : State) :
    let aboard := fun l => (occupantsOf s l).filter fun h => decide ((getRec s h).state = .aboard)
    let total := fun (f : LaneEntry → Handle → Int) => ((definedLanes s).map fun x => ((aboard x.1).map (f x.2)).sum).sum
    (stowSummary s).commHeel = s.heelOffset + total (fun e h => (recMass (getRec s h) : Int) * e.arm)
      ∧ (stowSummary s).commTrim = s.trimOffset
        + total (fun _ h => (recMass (getRec s h) : Int) * (getRec s h).centre.getD 0) := by
  unfold stowSummary commHeel commTrim
  simp only [aboardPart_eq]
  exact ⟨rfl, rfl⟩

/-- With no FREE record listed, the summary counts every handle once, under its state (R49). -/
theorem summary_counts {s : State} (c : TablesCanonical s) (listed : ∀ x ∈ s.records, x.2.state ≠ .free) :
    let v := stowSummary s
    let count := fun st => ((List.range 512).filter fun h => decide ((getRec s h).state = st)).length
    v.free = count .free ∧ v.offered = count .offered ∧ v.trial = count .trial ∧ v.reserved = count .reserved
      ∧ v.aboard = count .aboard ∧ v.left = count .left
      ∧ v.free + v.offered + v.trial + v.reserved + v.aboard + v.left = 512 := by
  have unlisted := free_count c listed
  have none_free : countState s .free = 0 := List.countP_eq_zero.2 fun x hx => by simpa using listed x hx
  have sum : s.records.length = countState s .free + countState s .offered + countState s .trial + countState s .reserved
      + countState s .aboard + countState s .left := (records_by_state s.records).2
  refine ⟨?_, countState_eq c (by decide), countState_eq c (by decide), countState_eq c (by decide),
    countState_eq c (by decide), countState_eq c (by decide), ?_⟩
  · exact Nat.sub_eq_of_eq_add unlisted.symm
  · change Config.unitRecords - s.records.length + countState s .offered + countState s .trial + countState s .reserved
      + countState s .aboard + countState s .left = Config.unitRecords
    omega

/-! ### The obligation -/

/-- Settles O46: the answers of the four requests, what the finders find, the figures of the replies, and the candidate and
eligible lanes, each by its own lemma above. -/
theorem stowReadsAndEvaluation : Obligations.StowReadsAndEvaluation := by
  refine ⟨fun q s => ⟨fun h => readUnit_handle, fun m => readUnit_mark, fun l n => readLane_answers,
      fun a => serve_answers a rfl⟩, fun s m c => ?_, fun s => ⟨fun l e n entry => ?_, ?_, fun h p => placeOf_eq_some_iff⟩,
    fun q d lane s a => ?_,
    fun s u => ⟨fun l e => mem_definedLanes, definedLanes_ascend s, List.filter_sublist, fun l e => mem_eligibleLanes⟩⟩
  · simp only [List.mem_singleton, ← isHolder_iff, ← recHasMark_iff]
    exact ⟨fun h e => (findHolder_some c e).1, findHolder_none, fun h => findTrial_some c, findTrial_none,
      fun h => findLeft_some, fun e h => findLeft_none e⟩
  · obtain ⟨clear, least⟩ := effectiveClearance_least s l e.clearance
    refine ⟨rfl, rfl, aftOf_getD .., commFill_eq s l, rfl, commMass_eq s l, List.countP_eq_length_filter, rfl,
      fun x slot => ?_, hoistHeld_iff, least _ List.mem_cons_self, fun x mem covered down => ?_, ?_,
      occupantViews_length .., fun i h => occupantViews_getElem⟩
    · change ((slotOf s l).map LaneSlot.suspect).getD false = _
      rw [slot]; rfl
    · exact least _ (List.mem_cons_of_mem _ (mem_reductions.2 ⟨x, mem, covered, down, rfl⟩))
    · exact (List.mem_cons.1 clear).imp_right mem_reductions.1
  · obtain ⟨heel, trim⟩ := summary_committed s
    exact ⟨generalAvailable_eq s, rfl, rfl, rfl, rfl, heel, trim, summary_decks s, ⟨rfl, rfl⟩, summary_counts⟩
  · cases lane with
    | none =>
      rw [evaluate_all a]
      cases descExactUnit d with
      | none => rfl
      | some u => cases bestLane s u <;> rfl
    | some l =>
      rw [evaluate_lane a, Option.map_some]
      cases entryOf s l with
      | none => rfl
      | some e => cases descExactUnit d <;> rfl

end Sys2Proof.Machine


namespace Sys2Proof.Machine

/-! # The placement evaluation (O16) -/

/-! ## The best lane -/

/-- The fold of R67 finds something wherever there is a lane to find. -/
theorem foldl_better_eq_none {xs : List Best} : xs.foldl better none = none ↔ xs = [] := by
  induction xs using List.reverseRecOn with
  | nil => exact iff_of_true rfl rfl
  | append_singleton xs x _ =>
    rw [List.foldl_append, List.foldl_cons, List.foldl_nil]
    refine iff_of_false ?_ (by simp)
    unfold better
    split
    · exact Option.some_ne_none _
    · split <;> exact Option.some_ne_none _

/-- Over lanes in ascending number, the fold of R67 keeps one of least score, and of those the first. -/
theorem foldl_better_least {xs : List Best} (ascend : xs.Pairwise fun x y => x.lane < y.lane) :
    ∀ b, xs.foldl better none = some b →
      b ∈ xs ∧ ∀ c ∈ xs, b.score < c.score ∨ (b.score = c.score ∧ b.lane ≤ c.lane) := by
  induction xs using List.reverseRecOn with
  | nil => intro b e; cases e
  | append_singleton xs x ih =>
    intro b e
    rw [List.foldl_append, List.foldl_cons, List.foldl_nil] at e
    obtain ⟨before, -, behind⟩ := List.pairwise_append.1 ascend
    simp only [List.mem_append, List.mem_singleton]
    cases found : xs.foldl better none with
    | none =>
      rw [found] at e
      cases e
      rw [foldl_better_eq_none.1 found]
      simp
    | some a =>
      obtain ⟨mem, least⟩ := ih before a found
      rw [found] at e
      unfold better at e
      dsimp only at e
      split at e
      next lower =>
        cases e
        refine ⟨.inr rfl, fun c hc => ?_⟩
        rcases hc with hc | rfl
        · have := least c hc; omega
        · exact .inr ⟨rfl, le_rfl⟩
      next notLower =>
        cases e
        refine ⟨.inl mem, fun c hc => ?_⟩
        rcases hc with hc | rfl
        · exact least c hc
        · have lane : b.lane < c.lane := behind b mem c (List.mem_singleton_self c)
          exact (Nat.lt_or_eq_of_le (not_lt.1 notLower)).imp_right fun eq => ⟨eq, lane.le⟩

/-- A lane with its score and tail position, as the evaluator compares it. -/
def bestOf (s : State) (u : UnitDesc) (x : Lane × LaneEntry) : Best :=
  { lane := x.1, score := score s x.1 x.2 u, place := tailPlacement s x.1 x.2 u }

theorem bestLane_eq_foldl (s : State) (u : UnitDesc) :
    bestLane s u = ((eligibleLanes s u).map (bestOf s u)).foldl better none :=
  List.foldl_map.symm

theorem bestLane_least {s : State} {u : UnitDesc} {b : Best} (best : bestLane s u = some b) :
    (∃ x ∈ eligibleLanes s u, bestOf s u x = b)
      ∧ ∀ x ∈ eligibleLanes s u, b.score < score s x.1 x.2 u ∨ (b.score = score s x.1 x.2 u ∧ b.lane ≤ x.1) := by
  have ascend : ((eligibleLanes s u).map (bestOf s u)).Pairwise fun x y => x.lane < y.lane :=
    List.pairwise_map.2 ((definedLanes_ascend s).filter _)
  obtain ⟨mem, least⟩ := foldl_better_least ascend b (bestLane_eq_foldl s u ▸ best)
  exact ⟨List.mem_map.1 mem, fun x hx => least _ (List.mem_map_of_mem hx)⟩

theorem bestLane_eq_none_iff {s : State} {u : UnitDesc} : bestLane s u = none ↔
    ∀ l e, (l, e) ∈ definedLanes s → ∃ k, checkPasses s l e u (tailPlacement s l e u) k = false := by
  rw [bestLane_eq_foldl, foldl_better_eq_none, List.map_eq_nil_iff, List.eq_nil_iff_forall_not_mem]
  simp only [Prod.forall, mem_eligibleLanes, not_and, not_forall, Bool.not_eq_true]

/-! ## The fifteen checks -/

/-- HELD (R138, Table 7.2): no section holds the lane. -/
theorem held_passes_iff {s : State} {l : Lane} : (!hoistHeld s l) = true ↔
    ∀ x ∈ s.sections, (l ∈ x.2.hoist → x.2.state = .deployed)
      ∧ (l ∈ x.2.covered → x.2.state = .stowed ∨ x.2.state = .deployed) := by
  rw [Bool.not_eq_true', Bool.eq_false_iff, ne_eq, hoistHeld_iff]
  push Not
  simp only [← or_iff_not_imp_left]

/-- SUSPECT: the flag of the lane's slot, where it has one (R35). -/
theorem suspect_passes_iff {s : State} {l : Lane} : (!((slotOf s l).map LaneSlot.suspect).getD false) = true ↔
    ∀ x, slotOf s l = some x → x.suspect = false := by
  cases slotOf s l <;> simp

/-- HEIGHT (R55): under the lane's own clearance and under every reduction in force. -/
theorem le_effectiveClearance_iff {s : State} {l : Lane} {n own : Nat} : n ≤ effectiveClearance s l own ↔
    n ≤ own ∧ ∀ x ∈ s.sections, l ∈ x.2.covered → x.2.state ≠ .stowed → n ≤ x.2.reduced := by
  obtain ⟨attained, least⟩ := effectiveClearance_least s l own
  constructor
  · intro le
    exact ⟨le.trans (least _ List.mem_cons_self), fun x mem covered down =>
      le.trans (least _ (List.mem_cons_of_mem _ (mem_reductions.2 ⟨x, mem, covered, down, rfl⟩)))⟩
  · rintro ⟨leOwn, leReduced⟩
    rcases List.mem_cons.1 attained with eq | reduced
    · rw [eq]; exact leOwn
    · obtain ⟨x, mem, covered, down, eq⟩ := mem_reductions.1 reduced
      rw [eq]; exact leReduced x mem covered down

theorem deckMass_passes_iff {s : State} {l : Lane} {e : LaneEntry} {u : UnitDesc} {p : Placement} :
    checkPasses s l e u p .deckMass = true ↔ ∃ limit, Table.find s.decks e.deck = some limit
      ∧ (((definedLanes s).filter fun x => x.2.deck == e.deck).map fun x =>
        ((occupantsOf s x.1).map fun h => recMass (getRec s h)).sum).sum + u.mass ≤ limit := by
  rw [← projDeckMass_eq]
  unfold checkPasses
  cases Table.find s.decks e.deck <;> simp

theorem plug_passes_iff {s : State} {l : Lane} {e : LaneEntry} {u : UnitDesc} {p : Placement} :
    checkPasses s l e u p .plug = true ↔
      (u.reefer = true → ((occupantsOf s l).filter fun h => recReefer (getRec s h)).length < e.plugs) := by
  unfold checkPasses plugsUsed
  rw [List.countP_eq_length_filter]
  cases u.reefer <;> simp

theorem order_passes_iff {s : State} {l : Lane} {e : LaneEntry} {u : UnitDesc} {p : Placement} :
    checkPasses s l e u p .order = true ↔
      ∀ h, (occupantsOf s l).getLast? = some h → u.rank ≤ recRank (getRec s h) := by
  unfold checkPasses tailRank
  cases (occupantsOf s l).getLast? <;> simp

/-- The segregation test of one occupant, code by code (R61). -/
theorem segregated_iff {l m : Lane} {e : LaneEntry} {p : Placement} {deck : Option Nat} {h : Handle} {code : SegCode} :
    segregated l e p m deck h code = true ↔
      match code with
      | .none => True
      | .notNeighbour => m = l → p.fore ≠ some h ∧ p.aft ≠ some h
      | .notSameLane => m ≠ l
      | .laneApart => m ≠ l ∧ e.port ≠ some m ∧ e.starboard ≠ some m
      | .deckApart => deck ≠ some e.deck := by
  cases code <;> simp [segregated, and_assoc, imp_iff_not_or]

/-- HAZARD (R60): a unit of a hazard class against every occupant of one. -/
theorem hazard_passes_iff {s : State} {l : Lane} {e : LaneEntry} {u : UnitDesc} {p : Placement} :
    hazardPasses s l e u p = true ↔
      ∀ c, u.hazard = some c → ∀ x ∈ laneSlots s, ∀ h ∈ x.2.occupants, ∀ d, recHazard (getRec s h) = some d →
        segregated l e p x.1 (x.2.entry.map LaneEntry.deck) h (segGet s c d) = true := by
  unfold hazardPasses
  cases u.hazard with
  | none => simp
  | some c =>
    simp only [List.all_eq_true, Option.some.injEq, forall_eq']
    refine forall₂_congr fun x _ => forall₂_congr fun h _ => ?_
    cases recHazard (getRec s h) <;> simp

/-! ## The tail position and its score -/

theorem orderTerm_eq (s : State) (l : Lane) (u : UnitDesc) : orderTerm s l u =
    match (occupantsOf s l).getLast? with
    | none => s.policy.pEmpty
    | some g => min 255 ((recRank (getRec s g) - u.rank) * 64) := by
  unfold orderTerm tailRank
  cases (occupantsOf s l).getLast? <;> rfl

/-! ## The obligation -/

/-- Settles O16: the best lane by the fold over the eligible lanes in ascending number, then the checks one by one, then the
figures of the tail position. -/
theorem bestLaneIsLeast : Obligations.BestLaneIsLeast := by
  refine ⟨fun s u => ⟨fun b best => ?_, bestLane_eq_none_iff⟩, fun s l e u p => ?_, fun s l e u => ?_⟩
  · obtain ⟨⟨⟨l, e⟩, mem, rfl⟩, least⟩ := bestLane_least best
    obtain ⟨defined, passes⟩ := mem_eligibleLanes.1 mem
    exact ⟨e, defined, passes, rfl, rfl, fun l' e' defined' passes' =>
      least (l', e') (mem_eligibleLanes.2 ⟨defined', passes'⟩)⟩
  · refine ⟨Iff.rfl, beq_iff_eq, held_passes_iff, suspect_passes_iff, decide_eq_true_iff,
      decide_eq_true_iff.trans le_effectiveClearance_iff, decide_eq_true_iff, decide_eq_true_iff, decide_eq_true_iff,
      deckMass_passes_iff, plug_passes_iff, order_passes_iff, ?_, ?_, ?_⟩
    · exact hazard_passes_iff.trans <| forall₂_congr fun c _ => forall₂_congr fun x _ => forall₂_congr fun h _ =>
        forall₂_congr fun d _ => segregated_iff
    · simp only [checkPasses, Bool.or_eq_true, decide_eq_true_eq]
    · simp only [checkPasses, Bool.or_eq_true, Bool.and_eq_true, decide_eq_true_eq]
      rfl
  · refine ⟨offsetBehind_aftOf .., rfl, rfl, rfl, rfl, rfl, rfl, ?_⟩
    unfold score
    rw [orderTerm_eq]
    rfl

end Sys2Proof.Machine

namespace Sys2Proof.Machine

/-! # The bid chain by role and by status (O6, O12, O14, O17, O18, O39) -/

/-! ## CLOCK and IDENTIFY (O39) -/

/-- Settles O39: a fast order's effect, both setting no flag. -/
theorem clockAndIdentify : Obligations.ClockAndIdentify := by
  refine fun s => ⟨fun v ready => ?_, fun ready => ?_⟩
  · change Host.Outcome.next (takeOrder (.clock v) (fun t => { t with stowClock := v }) s) = _
    rw [takeOrder_ready ready rfl]; rfl
  · change Host.Outcome.next (takeOrder .identify (fun t => emitRet t (identFrame t)) s) = _
    rw [takeOrder_ready ready rfl]; rfl

/-! ## Expiries (O6) -/

theorem offerExpired_iff {s : State} {h : Handle} :
    offerExpired s h = true ↔ h ∈ s.offers ∧ (getRec s h).state = .offered ∧ (getRec s h).deadline = some 0 := by
  unfold offerExpired
  rw [Bool.and_eq_true, Bool.and_eq_true, List.contains_iff_mem, beq_iff_eq, beq_iff_eq, and_assoc]

theorem offerDeadline_counting {h : Handle} {s : State} (out : s.inReset = false) :
    exec (.offerDeadline h) s = .next (if offerExpired s h = true then withdrawOffer s h else s) := by
  change Host.Outcome.next (if (!s.inReset && offerExpired s h) = true then withdrawOffer s h else s) = _
  rw [out]; rfl

theorem reservationLapse_counting {h : Handle} {s : State} (out : s.inReset = false) :
    exec (.reservationLapse h) s = .next (if nextLapse s = some h then endEvent s (lapse s h) else s) := by
  change Host.Outcome.next (if (!s.inReset && nextLapse s == some h) = true then endEvent s (lapse s h) else s) = _
  rw [out, Bool.not_false, Bool.true_and]
  simp only [beq_iff_eq]

/-- Settles O6: out of reset, an expiry command asks whether its own count is the one that has run out. -/
theorem offersAndReservationsExpire : Obligations.OffersAndReservationsExpire := by
  refine ⟨fun h s out => ?_, fun h s out => reservationLapse_counting out⟩
  rw [offerDeadline_counting out]
  simp only [offerExpired_iff]
  rfl

/-! ## The bid step without a bid (O14) -/

/-- When the bid step goes on past R80. -/
theorem bidPasses_false_iff {s : State} {c : CheckIn} : bidPasses s c = false ↔
    s.voyage = .opened ∧ (c.bid = .none ∨ ∃ sc p l o, c.bid = .bid sc p l o) ∧ descFaulty c.desc = false
      ∧ descHeight c.desc ≤ 600 := by
  unfold bidPasses descTall
  cases c.bid <;> simp [and_assoc]

theorem bidStep_passes {s : State} {c : CheckIn} (passes : bidPasses s c = true) : bidStep s c = (c, s) := by
  unfold bidStep; rw [if_pos passes]

theorem holderState_eq_some_iff {r : RecState} {st : HolderState} : holderState r = some st ↔
    (r = .offered ∧ st = .offered) ∨ (r = .reserved ∧ st = .reserved) ∨ (r = .aboard ∧ st = .aboard) := by
  cases r <;> simp [holderState, eq_comm]

/-- A record holds its mark as RESERVED exactly where its state is RESERVED. -/
theorem holderState_reserved_iff {r : RecState} {st : HolderState} (holds : holderState r = some st) :
    r = .reserved ↔ st = .reserved := by
  obtain ⟨rfl, rfl⟩ | ⟨rfl, rfl⟩ | ⟨rfl, rfl⟩ := holderState_eq_some_iff.1 holds <;> decide

/-- The bid step of an engine that holds the mark (R81). -/
theorem bidStep_holder {s : State} {c : CheckIn} {h : Handle} {st : HolderState} (acts : bidPasses s c = false)
    (held : findHolder s (descMark c.desc) = some h) (state : holderState (getRec s h).state = some st) :
    bidStep s c =
      ({ c with bid := .duplicate s.position (recLane (getRec s h)) (recOffset (getRec s h)) (some st) },
        if st = .reserved then joinReservations s h else s) := by
  unfold bidStep bidDuplicate
  rw [acts, held]
  dsimp only
  rw [state]
  simp only [holderState_reserved_iff state]
  rfl

/-- Without room for an offer an engine does not bid, and sets no flag while general allocation is available (R82). -/
theorem bidCompete_full {s : State} (c : CheckIn) (u : UnitDesc) (general : liveCount s < 480)
    (full : 8 ≤ s.offers.length ∨ 64 ≤ s.offers.length + s.reservations.length) : bidCompete s c u = (c, s) := by
  unfold bidCompete
  rw [if_neg (fun low => Nat.not_le.2 general (generalAvailable_false_iff.1 low)), if_pos (offersFull_iff.2 full)]

/-- Settles O14: R80's tests, the holder of the mark, and the rooms of R82. -/
theorem bidStepWithoutABid : Obligations.BidStepWithoutABid := by
  refine ⟨fun c s stops => ?_, ⟨fun c s => bidPasses_false_iff, fun r st => holderState_eq_some_iff⟩,
    fun c s h st acts held state => bidStep_holder acts held state, fun c s free general full => ?_⟩
  · refine bidStep_passes (Bool.eq_true_of_not_eq_false fun acts => ?_)
    obtain ⟨opened, bid, sound, low⟩ := bidPasses_false_iff.1 acts
    obtain shut | invalid | ⟨p, l, o, st, duplicate⟩ | faulty | tall := stops
    · exact shut opened
    · simp [invalid] at bid
    · simp [duplicate] at bid
    · simp [faulty] at sound
    · exact Nat.not_lt.2 low tall
  · cases passes : bidPasses s c with
    | true => exact bidStep_passes passes
    | false =>
      cases unit : descUnit c.desc with
      | none => unfold bidStep; rw [passes, free, unit]; rfl
      | some u => rw [bidStep_competes passes free unit, bidCompete_full c u general full]

/-! ## Settlement (O17) -/

theorem emitDown_eq (s : State) (f : Option Frame) : emitDown s f = { s with origFwd := s.origFwd ++ f.toList } := by
  cases f with
  | none => simp [emitDown]
  | some f => rfl

/-- A TAIL's settlement, its frame to the marshals written out (R87). -/
theorem settleTail_eq (s : State) (c : CheckIn) : settleTail s c =
    (let r := confirmStep { s with origFwd := s.origFwd ++ (settleDown c).toList } (settleUp c)
    { r.2 with origRet := r.2.origRet ++ [.confirm r.1] }) := by
  unfold settleTail; rw [emitDown_eq]; rfl

/-- A SOLE engine's settlement, its frame to the marshals written out (R95). -/
theorem settleSole_eq (s : State) (c : CheckIn) : settleSole s c =
    (let r := confirmStep { s with origFwd := s.origFwd ++ (settleDown c).toList } (settleUp c)
    headConsume r.2 r.1) := by
  unfold settleSole; rw [emitDown_eq]

/-- Settles O17: Table 4.4 row by row, and the settlement of both ends of a chain. -/
theorem settlementFrames : Obligations.SettlementFrames :=
  ⟨fun _ _ _ _ _ _ _ => ⟨rfl, rfl, rfl, rfl, rfl, ⟨Config.unnamedHolder _, rfl⟩, rfl, rfl, rfl, fun _ => rfl, rfl,
    fun _ => ⟨rfl, rfl, rfl⟩⟩, fun c s => ⟨settleTail_eq s c, settleSole_eq s c⟩⟩

/-! ## CHECK_IN (O12) -/

theorem checkIn_ready {c : CheckIn} {s : State} (ready : Ready .fwd (.checkIn c) s) :
    exec (.checkIn c) s = .next (endEvent s (actCheckIn c (took .fwd s))) :=
  congrArg Host.Outcome.next (takeFrame_ready ready rfl)

/-- A HEAD or SOLE that is not OPEN shuts a check-in out (R77). -/
theorem actCheckIn_shut {c : CheckIn} {s : State} (role : s.role = .head ∨ s.role = .sole) (shut : s.voyage ≠ .opened) :
    actCheckIn c s = emitFwd s (.shutOut (descMark c.desc) .notOpen) := by
  have closed : (s.voyage != .opened) = true := bne_iff_ne.2 shut
  unfold actCheckIn checkInHead checkInSole
  obtain role | role := role <;> rw [role] <;> exact if_pos closed

/-- The stamp reads the chain sequence counter alone of the state. -/
theorem stampFrame_took (s : State) (c : CheckIn) : stampFrame (took .fwd s) c = stampFrame s c := rfl

theorem actCheckIn_head {c : CheckIn} {s : State} (role : s.role = .head) (opened : s.voyage = .opened) :
    actCheckIn c s =
      (let r := bidStep (stampState s c) (stampFrame s c)
      passDown r.2 (.checkIn r.1)) := by
  unfold actCheckIn checkInHead; rw [role, opened]; rfl

theorem actCheckIn_mid {c : CheckIn} {s : State} (role : s.role = .mid) :
    actCheckIn c s = passDown (bidStep s c).2 (.checkIn (bidStep s c).1) := by
  unfold actCheckIn; rw [role]

theorem actCheckIn_tail {c : CheckIn} {s : State} (role : s.role = .tail) :
    actCheckIn c s = settleTail (bidStep s c).2 (bidStep s c).1 := by
  unfold actCheckIn; rw [role]

theorem actCheckIn_sole {c : CheckIn} {s : State} (role : s.role = .sole) (opened : s.voyage = .opened) :
    actCheckIn c s =
      settleSole (bidStep (stampState s c) (stampFrame s c)).2 (bidStep (stampState s c) (stampFrame s c)).1 := by
  unfold actCheckIn checkInSole; rw [role, opened]; rfl

/-- Settles O12: the frame is taken, and acted on by the role. -/
theorem checkInByRole : Obligations.CheckInByRole := by
  refine ⟨fun c s ready role shut => ?_, fun c s ready => ?_⟩
  · rw [checkIn_ready ready, actCheckIn_shut (s := took .fwd s) role shut]
    exact congrArg _ (endEvent_same rfl)
  · rw [checkIn_ready ready]
    refine ⟨fun role opened => ?_, fun role => ?_, fun role => ?_, fun role opened => ?_⟩
    · rw [actCheckIn_head (s := took .fwd s) role opened, stampFrame_took]
    · rw [actCheckIn_mid (s := took .fwd s) role]
    · rw [actCheckIn_tail (s := took .fwd s) role, settleTail_eq]
    · rw [actCheckIn_sole (s := took .fwd s) role opened, settleSole_eq, stampFrame_took]

/-! ## CONFIRM (O18) -/

/-- An engine that the CONFIRM does not name the winner withdraws its matching offer and passes the frame unchanged (R89). -/
theorem confirmStep_other {s : State} {c : Confirm} (other : ∀ l o, c.result ≠ .winner s.position l o) :
    confirmStep s c = (c, confirmOther s c) := by
  unfold confirmStep
  split
  · rename_i pos l o won
    exact if_neg fun here : pos = s.position => other l o (here ▸ won)
  all_goals rfl

/-- The HEAD holds or shuts out a unit whose CONFIRM says NONE, a cancelled one apart (R94). -/
theorem headConsume_none {s : State} {c : Confirm} {r : NoneReason} (result : c.result = .none r) (live : r ≠ .cancelled) :
    headConsume s c = holdUnit s c r := by
  unfold headConsume; rw [result]
  cases r with
  | cancelled => exact absurd rfl live
  | _ => rfl

/-- The HEAD consumes any other CONFIRM without effect (R94). -/
theorem headConsume_same {s : State} {c : Confirm} (quiet : (∀ r, c.result ≠ .none r) ∨ c.result = .none .cancelled) :
    headConsume s c = s := by
  unfold headConsume
  split
  · rfl
  · rename_i r live result
    obtain other | cancelled := quiet
    · exact absurd result (other r)
    · exact absurd (ConfirmResult.none.inj (result.symm.trans cancelled)) live
  all_goals rfl

theorem holdUnit_eq (s : State) (c : Confirm) (r : NoneReason) : holdUnit s c r =
    (let kept := s.holds.filter fun e => descMark e.desc != descMark c.desc
    if s.voyage ≠ .opened then emitFwd s (.shutOut (descMark c.desc) .notOpen)
    else if c.retry.set = true ∧ 15 ≤ c.retry.count then emitFwd s (.shutOut (descMark c.desc) .retries)
    else if kept.length < 32 then { s with holds := kept ++ [holdEntryOf s c r] }
    else raiseNotice (emitFwd s (.shutOut (descMark c.desc) .holdFull)) .holdOverflow) := by
  unfold holdUnit
  simp only [bne_iff_ne, Bool.and_eq_true, decide_eq_true_eq]
  rfl

/-! ## The description as it is held (R106) -/

/-- The long form carries the figures of a short one: none is too large for its field. -/
theorem descToLong_figures (d : Desc) : descLength (descToLong d) = descLength d ∧ descMass (descToLong d) = descMass d
    ∧ descHeight (descToLong d) = descHeight d := by
  cases d with
  | long k r n m l w h z => exact ⟨rfl, rfl, rfl⟩
  | short k n m l w h =>
    have := l.isLt
    have := w.isLt
    have := h.isLt
    simp only [descToLong, descLength, descMass, descHeight, BitVec.toNat_ofNat]
    omega

theorem descToLong_rest (d : Desc) : descRank (descToLong d) = descRank d ∧ descHazard (descToLong d) = descHazard d
    ∧ descReefer (descToLong d) = descReefer d := by
  cases d <;> exact ⟨rfl, rfl, rfl⟩

/-- A short form may name fewer kinds than a long one; a description without a fault names the same in both (R78). -/
theorem descKind_toLong {d : Desc} (sound : descFaulty d = false) : descKind (descToLong d) = descKind d := by
  cases d with
  | long k r n m l w h z => rfl
  | short k n m l w h =>
    have code : k.toNat < 2 := by
      rw [Bool.eq_false_iff, Ne, descFaulty_short] at sound; omega
    rw [descKind_short, List.getElem?_take_of_lt code]
    exact descKind_long ..

theorem descFaulty_toLong {d : Desc} (sound : descFaulty d = false) : descFaulty (descToLong d) = false := by
  obtain ⟨length, mass, height⟩ := descToLong_figures d
  obtain ⟨rank, hazard, -⟩ := descToLong_rest d
  rw [← sound]
  unfold descFaulty
  rw [descKind_toLong sound, length, mass, height, rank, hazard]

/-- A description without a fault gives the same unit in long form. -/
theorem descUnit_toLong {d : Desc} (sound : descFaulty d = false) : descUnit (descToLong d) = descUnit d := by
  obtain ⟨length, mass, height⟩ := descToLong_figures d
  obtain ⟨rank, hazard, reefer⟩ := descToLong_rest d
  unfold descUnit
  rw [descFaulty_toLong sound, sound, descKind_toLong sound, descMark_descToLong, length, mass, height, rank, hazard, reefer]

theorem descExactUnit_toLong {d : Desc} (sound : descFaulty d = false) :
    descExactUnit (descToLong d) = descExactUnit d := by
  rw [descExactUnit_of_height, descExactUnit_of_height, (descToLong_figures d).2.2, descUnit_toLong sound]

/-! ## CONFIRM by role -/

theorem confirm_ready {c : Confirm} {s : State} (ready : Ready .ret (.confirm c) s) :
    exec (.confirm c) s = .next (endEvent s (actConfirm c (took .ret s))) :=
  congrArg Host.Outcome.next (takeFrame_ready ready rfl)

/-- A MID or TAIL passes the CONFIRM up as its step left it; a HEAD or SOLE consumes it. -/
theorem actConfirm_eq (c : Confirm) (s : State) : actConfirm c s =
    (let r := confirmStep s c
    if s.role = .mid ∨ s.role = .tail then passUp r.2 (.confirm r.1) else headConsume r.2 r.1) := by
  unfold actConfirm
  cases s.role <;> rfl

/-- Settles O18: the step's frame by role, the step of an engine that did not win, R94's outcomes, and the held form. -/
theorem confirmByRole : Obligations.ConfirmByRole := by
  refine ⟨fun c s ready => ?_, fun c s other => ?_, fun c s => ⟨headConsume_same, fun r result live => ?_⟩, fun d => ⟨?_,
    descMark_descToLong d, ?_, fun sound => ⟨descFaulty_toLong sound, descUnit_toLong sound, descExactUnit_toLong sound⟩⟩⟩
  · rw [confirm_ready ready, actConfirm_eq]; rfl
  · rw [confirmStep_other other]; rfl
  · rw [headConsume_none result live, holdUnit_eq]; rfl
  · cases d <;> exact ⟨_, _, _, _, _, _, _, _, rfl⟩
  · rintro ⟨k, r, n, m, l, w, h, z, rfl⟩; rfl

end Sys2Proof.Machine

namespace Sys2Proof.Machine

/-! # The block as a whole (O2, O3) -/

/-! ## POWER_ON (O3) -/

/-- Settles O3: the contents of `powerOnState`, table by table; the role is read off the straps. -/
theorem powerOnContents : Obligations.PowerOnContents := by
  intro r p s
  have sole : r = 0#2 → roleOfStraps r = .sole := by rintro rfl; rfl
  have head : r = 1#2 → roleOfStraps r = .head := by rintro rfl; rfl
  have mid : r = 2#2 → roleOfStraps r = .mid := by rintro rfl; rfl
  have tail : r = 3#2 → roleOfStraps r = .tail := by rintro rfl; rfl
  have gaps (k : UnitKind) : perKind (everyKind 5) k = 5 := by cases k <;> rfl
  have reset : r = 0#2 ∧ p = 0#2 ∧ s.pending = [] →
      { powerOnState (roleOfStraps r) p with pending := s.pending } = State.reset := by
    rintro ⟨rfl, rfl, idle⟩; rw [idle]; rfl
  refine ⟨_, rfl, sole, head, mid, tail, rfl, rfl, rfl, rfl, rfl, rfl, rfl, fun _ _ => rfl, rfl, rfl, gaps, rfl, fun _ => rfl,
    rfl, rfl, rfl, rfl, rfl, rfl, rfl, rfl, rfl, rfl, rfl, rfl, rfl, rfl, rfl, rfl, rfl, rfl, rfl, rfl, rfl, rfl, rfl, rfl, rfl,
    rfl, rfl, rfl, rfl, rfl, rfl, rfl, rfl, reset⟩

/-! ## What no command but POWER_ON changes (O2) -/

/-- The queue of waiting commands and the straps. -/
def standing (s : State) : List Instr × Role × Pos := (s.pending, s.role, s.position)

theorem standing_eq_iff {s t : State} :
    standing t = standing s ↔ t.pending = s.pending ∧ t.role = s.role ∧ t.position = s.position := by
  simp only [standing, Prod.mk.injEq]

/-! ### Operations on records, lanes, notices and ports -/

section
variable (s : State)

@[simp] theorem standing_setRec (h : Handle) (r : UnitRec) : standing (setRec s h r) = standing s := rfl
@[simp] theorem standing_raiseNotice (n : Notice) : standing (raiseNotice s n) = standing s := rfl
@[simp] theorem standing_emitFwd (f : Frame) : standing (emitFwd s f) = standing s := rfl
@[simp] theorem standing_emitRet (f : Frame) : standing (emitRet s f) = standing s := rfl
@[simp] theorem standing_passDown (f : Frame) : standing (passDown s f) = standing s := rfl
@[simp] theorem standing_passUp (f : Frame) : standing (passUp s f) = standing s := rfl
@[simp] theorem standing_setSection (id : Nat) (e : SectionEntry) : standing (setSection s id e) = standing s := rfl
@[simp] theorem standing_emitAttention : standing (emitAttention s) = standing s := rfl
@[simp] theorem standing_endReport : standing (endReport s) = standing s := rfl
@[simp] theorem standing_setRxQueue (q : List Frame) (p : InPort) : standing (setRxQueue s q p) = standing s := by
  cases p <;> rfl
@[simp] theorem standing_modifySlot (l : Lane) (f : LaneSlot → LaneSlot) : standing (modifySlot s l f) = standing s := by
  rw [modifySlot_only]; rfl
@[simp] theorem standing_setSuspect (l : Lane) (b : Bool) : standing (setSuspect s l b) = standing s :=
  standing_modifySlot ..
@[simp] theorem standing_setEntry (l : Lane) (e : Option LaneEntry) : standing (setEntry s l e) = standing s :=
  standing_modifySlot ..
@[simp] theorem standing_listAtTail (h : Handle) (l : Lane) : standing (listAtTail s h l) = standing s := by
  rw [listAtTail_only]; rfl
@[simp] theorem standing_listBehindAboard (h : Handle) (l : Lane) : standing (listBehindAboard s h l) = standing s := by
  rw [listBehindAboard_only]; rfl
@[simp] theorem standing_promote (h : Handle) (l : Lane) : standing (promote s h l) = standing s := by
  rw [promote_only]; rfl
@[simp] theorem standing_unlist (h : Handle) : standing (unlist s h) = standing s := by rw [unlist_only]; rfl
@[simp] theorem standing_freeRec (h : Handle) : standing (freeRec s h) = standing s := by rw [freeRec_only]; rfl
@[simp] theorem standing_freeAll (hs : List Handle) : standing (freeAll hs s) = standing s := by rw [freeAll_only]; rfl
@[simp] theorem standing_makeLeft (h : Handle) : standing (makeLeft s h) = standing s := by rw [makeLeft_only]; rfl
@[simp] theorem standing_joinReservations (h : Handle) : standing (joinReservations s h) = standing s := rfl
@[simp] theorem standing_makeReserved (h : Handle) : standing (makeReserved s h) = standing s := rfl
@[simp] theorem standing_withdrawOffer (h : Handle) : standing (withdrawOffer s h) = standing s := by
  rw [withdrawOffer_only]; rfl
@[simp] theorem standing_dropReservation (h : Handle) : standing (dropReservation s h) = standing s := by
  rw [dropReservation_only]; rfl
@[simp] theorem standing_post (k : ExcKind) (m : Option Mark) (l : Option Lane) (m2 : Option Mark) (d : Option ExcDetail) :
    standing (post s k m l m2 d) = standing s := by rw [post_only]; rfl
@[simp] theorem standing_testStability : standing (testStability s) = standing s := by rw [testStability_only]; rfl
@[simp] theorem standing_judge (m : Mark) (l : Lane) (rank : Nat) (a : Option UnitRec) :
    standing (judge s m l rank a) = standing s := by rw [judge_only]; rfl
@[simp] theorem standing_emitAllRet (fs : List Frame) : standing (emitAllRet fs s) = standing s := by
  rw [emitAllRet_eq]; rfl
@[simp] theorem standing_shutHolds (r : ShutReason) : standing (shutHolds s r) = standing s := by
  rw [shutHolds_eq]; rfl
@[simp] theorem standing_abandonReport : standing (abandonReport s) = standing s := by rw [abandonReport_eq]; rfl

end

theorem standing_allocate {s t : State} {h : Handle} (e : allocate s = some (h, t)) : standing t = standing s := by
  rw [allocate_only e]; rfl

@[simp] theorem standing_endEvent (s t : State) : standing (endEvent s t) = standing t := by
  unfold endEvent; split <;> rfl

@[simp] theorem standing_arrive (s : State) (p : InPort) (f : Frame) : standing (arrive s p f) = standing s := by
  unfold arrive
  split
  · rfl
  · split <;> simp

/-! ### The bid chain (chapter 4) -/

@[simp] theorem standing_bidStep (s : State) (c : CheckIn) : standing (bidStep s c).2 = standing s := by
  have duplicate (h : Handle) : standing (bidDuplicate s c h).2 = standing s := by
    unfold bidDuplicate
    dsimp only
    split
    · rfl
    · dsimp only; split <;> simp
  have offer (u : UnitDesc) (l : Lane) : standing (placeOffer s u c.sequence l) = standing s := by
    cases e : allocate s with
    | none => unfold placeOffer; rw [e]
    | some x =>
      obtain ⟨h, a⟩ := x
      have listed : standing (listAtTail (setRec a h (offerRecord s u c.sequence)) h l) = standing s := by
        rw [standing_listAtTail, standing_setRec, standing_allocate e]
      rw [placeOffer_eq e]; exact listed
  have compete (u : UnitDesc) : standing (bidCompete s c u).2 = standing s := by
    unfold bidCompete
    split
    · rfl
    split
    · rfl
    split
    · rfl
    split
    · exact offer ..
    · rfl
  unfold bidStep
  split
  · rfl
  split
  · exact duplicate _
  split
  · rfl
  · exact compete _


@[simp] theorem standing_lateReserve (s : State) (u : UnitDesc) (n : Seq) (l : Lane) :
    standing (lateReserve s u n l) = standing s := by
  cases e : allocate s with
  | none => unfold lateReserve; rw [e]
  | some x =>
    obtain ⟨h, a⟩ := x
    rw [lateReserve_eq e, standing_post, standing_joinReservations, standing_listAtTail, standing_setRec, standing_allocate e]

@[simp] theorem standing_confirmStep (s : State) (c : Confirm) : standing (confirmStep s c).2 = standing s := by
  have other : standing (confirmOther s c) = standing s := by unfold confirmOther; split <;> simp
  have late (l : Lane) : standing (lateConfirm s c l).2 = standing s := by
    unfold lateConfirm
    split
    · simp
    · dsimp only; split <;> simp
  have winner (l : Lane) : standing (confirmWinner s c l).2 = standing s := by
    unfold confirmWinner
    split
    · dsimp only
      split
      · simp
      · exact standing_makeReserved ..
    split
    · split <;> rfl
    · exact late l
  unfold confirmStep
  split
  · split
    · exact winner _
    · exact other
  all_goals exact other

@[simp] theorem standing_headConsume (s : State) (c : Confirm) : standing (headConsume s c) = standing s := by
  have hold (r : NoneReason) : standing (holdUnit s c r) = standing s := by
    unfold holdUnit
    split
    · rfl
    split
    · rfl
    dsimp only
    split <;> rfl
  unfold headConsume
  split
  case h_2 => exact hold _
  all_goals rfl

@[simp] theorem standing_emitDown (s : State) (f : Option Frame) : standing (emitDown s f) = standing s := by
  rw [emitDown_eq]; rfl

@[simp] theorem standing_settleTail (s : State) (c : CheckIn) : standing (settleTail s c) = standing s := by
  simp [settleTail]

@[simp] theorem standing_settleSole (s : State) (c : CheckIn) : standing (settleSole s c) = standing s := by
  simp [settleSole]

@[simp] theorem standing_stampState (s : State) (c : CheckIn) : standing (stampState s c) = standing s := rfl

@[simp] theorem standing_startRetry (s : State) : standing (startRetry s) = standing s := by
  unfold startRetry
  split
  · rfl
  split
  · rfl
  · rename_i e rest _
    have popped : standing { s with holds := rest } = standing s := rfl
    dsimp only
    split <;> simp [popped]

@[simp] theorem standing_capacityFreed (s : State) : standing (capacityFreed s) = standing s := by
  unfold capacityFreed
  split <;> simp

theorem standing_actCheckIn (c : CheckIn) (s : State) : standing (actCheckIn c s) = standing s := by
  unfold actCheckIn checkInHead checkInSole
  split
  · split <;> simp
  · simp
  · simp
  · split <;> simp

theorem standing_actConfirm (c : Confirm) (s : State) : standing (actConfirm c s) = standing s := by
  rw [actConfirm_eq]
  dsimp only
  split <;> simp

theorem standing_actFreed (p : Pos) (s : State) : standing (actFreed p s) = standing s := by
  unfold actFreed
  split <;> simp

/-! ### Tallies (chapter 6) -/

@[simp] theorem standing_postLimit (s : State) (m : Mark) (l : Lane) (f : List Check) :
    standing (postLimit s m l f) = standing s := by rw [postLimit_only]; rfl

@[simp] theorem standing_postExitOrder (b s : State) (h : Handle) (m : Mark) :
    standing (postExitOrder b s h m) = standing s := by rw [postExitOrder_only]; rfl

@[simp] theorem standing_unrecorded (s : State) (m : Mark) (l : Lane) : standing (unrecorded s m l).st = standing s := by
  simp [unrecorded]

@[simp] theorem standing_refusedForced (s : State) : standing (refusedForced s) = standing s := by
  unfold refusedForced; split <;> rfl

@[simp] theorem standing_tallyMove (s : State) (m : Mark) (l : Lane) (h : Handle) :
    standing (tallyMove s m l h).st = standing s := by
  have off : standing { s with reservations := s.reservations.filter (· != h) } = standing s := rfl
  unfold tallyMove
  split
  · simp [recorded, off]
  · simp

@[simp] theorem standing_tallyConvert (s : State) (m : Mark) (l : Lane) (h : Handle) :
    standing (tallyConvert s m l h).st = standing s := by
  have off : standing { s with offers := s.offers.filter (· != h) } = standing s := rfl
  unfold tallyConvert
  split
  · simp [recorded, off]
  · simp

@[simp] theorem standing_tallyCommit (s : State) (m : Mark) (l : Lane) (h : Handle) :
    standing (tallyCommit s m l h).st = standing s := by
  have off : standing { s with reservations := s.reservations.filter (· != h) } = standing s := rfl
  simp [tallyCommit, recorded, off]

@[simp] theorem standing_tallyRestow (s : State) (m : Mark) (l : Lane) (h : Handle) :
    standing (tallyRestow s m l h).st = standing s := by
  unfold tallyRestow
  split
  · split
    · simp
    · rename_i e; simp [recorded, standing_allocate e]
  · simp

@[simp] theorem standing_tallyForced (s : State) (m : Mark) (l : Lane) (d : Option Desc) :
    standing (tallyForced s m l d).st = standing s := by
  unfold tallyForced
  split
  · split
    · simp
    · rename_i e; simp [recorded, standing_allocate e]
  · simp

@[simp] theorem standing_tallyOnAction (s : State) (m : Mark) (l : Lane) (d : Option Desc) :
    standing (tallyOnAction s m l d).st = standing s := by
  unfold tallyOnAction
  split
  · split
    · simp
    · rfl
  split
  · split
    · simp [tallyElsewhere]
    · split <;> simp
  · split
    · simp
    · rfl
  · split
    · simp [tallyRestowElsewhere]
    · split
      · rfl
      · simp
  · rfl

@[simp] theorem standing_tallyOffAction (s : State) (m : Mark) : standing (tallyOffAction s m).st = standing s := by
  unfold tallyOffAction
  split
  · rfl
  · split
    · simp
    · rfl

@[simp] theorem standing_postClosed (s : State) (m : Mark) (l : Lane) (b : Bool) :
    standing (postClosed s m l b) = standing s := by unfold postClosed; split <;> simp

@[simp] theorem standing_detect (s : State) (k : ExcKind) (m : Mark) (l : Lane) (b : Bool) :
    standing (detect s k m l b) = standing s := by unfold detect; split <;> simp

@[simp] theorem standing_tallyFreed (s : State) (b : Bool) : standing (tallyFreed s b) = standing s := by
  unfold tallyFreed; split <;> simp

theorem standing_actTallyOn (m : Mark) (l : Lane) (d : Option Desc) (placed : Bool) (s : State) :
    standing (actTallyOn m l d placed s) = standing s := by
  unfold actTallyOn; split <;> simp

theorem standing_actTallyOff (m : Mark) (l : Lane) (removed : Bool) (s : State) :
    standing (actTallyOff m l removed s) = standing s := by
  unfold actTallyOff; split <;> simp

/-! ### Hoistable decks (chapter 7) -/

@[simp] theorem standing_postHeights (x : List (Lane × Handle)) : ∀ s : State, standing (postHeights x s) = standing s := by
  induction x with
  | nil => exact fun _ => rfl
  | cons y t ih => intro s; simp [postHeights, ih]

@[simp] theorem standing_withdrawAll (hs : List Handle) : ∀ s : State, standing (withdrawAll hs s) = standing s := by
  induction hs with
  | nil => exact fun _ => rfl
  | cons h t ih => intro s; simp [withdrawAll, ih]

@[simp] theorem standing_statusDown (s : State) (id : Nat) (e : SectionEntry) : standing (statusDown s id e) = standing s := by
  unfold statusDown
  split <;> simp [downUnpermitted, postHoist]

@[simp] theorem standing_statusUp (s : State) (id : Nat) (e : SectionEntry) : standing (statusUp s id e) = standing s := by
  unfold statusUp
  dsimp only
  split <;> simp [postHoist]

theorem standing_actHoistStatus (target : Pos) (id : Nat) (down : Bool) (s : State) :
    standing (actHoistStatus target id down s) = standing s := by
  unfold actHoistStatus
  rw [standing_passDown]
  split
  · split
    · rfl
    · split <;> simp
  · rfl

theorem standing_actDeploy (id : Nat) (s : State) : standing (actDeploy id s).st = standing s := by
  unfold actDeploy
  split
  · rfl
  split
  · rfl
  split
  · rfl
  split <;> rfl

theorem standing_actStow (id : Nat) (s : State) : standing (actStow id s).st = standing s := by
  unfold actStow
  split
  · rfl
  split
  · rfl
  split
  · rfl
  split <;> rfl

/-! ### Stowage reports (chapter 9) -/

@[simp] theorem standing_composeSection (s : State) (c : Criterion) (k : Token) :
    standing (composeSection s c k) = standing s := by
  have settle (hs : List Handle) : ∀ t : State, standing (settleAllChanged hs t) = standing t := by
    induction hs with
    | nil => exact fun _ => rfl
    | cons h r ih =>
      intro t
      rw [settleAllChanged, ih]
      unfold settleChanged
      split <;> simp
  unfold composeSection
  dsimp only
  split
  · exact settle _ s
  · rfl

@[simp] theorem standing_advanceSection (s : State) : standing (advanceSection s) = standing s := by
  have pass (t : Token) : standing (passToken s t) = standing s := by
    unfold passToken
    dsimp only
    split <;> rfl
  unfold advanceSection
  split
  · rfl
  · split
    · exact pass _
    · rfl

@[simp] theorem standing_reportSent (s : State) (f : Frame) : standing (reportSent s f) = standing s := by
  unfold reportSent
  split
  · split
    · simp
    · rfl
  · split
    · exact standing_advanceSection _
    · rfl
  · split <;> rfl
  · rfl

@[simp] theorem standing_sendFwd (s : State) : standing (sendFwd s) = standing s := by
  unfold sendFwd; split <;> rfl

@[simp] theorem standing_sendRet (s : State) : standing (sendRet s) = standing s := by
  unfold sendRet
  split
  · rfl
  · rfl
  · split
    · rfl
    · exact standing_reportSent _ _

theorem standing_actReport (f : CriterionField) (s : State) : standing (actReport f s).st = standing s := by
  unfold actReport
  split
  · rfl
  split
  · rfl
  split
  · rfl
  · exact standing_composeSection _ _ _

theorem standing_actReportToken (k : Token) (s : State) : standing (actReportToken k s) = standing s := by
  have ended : standing (endEarlierSection s) = standing s := by unfold endEarlierSection; split <;> rfl
  unfold actReportToken takeToken
  split <;> simp [ended]

theorem standing_actTrailer (serial : Byte) (count : Nat) (s : State) :
    standing (actTrailer serial count s) = standing s := by
  unfold actTrailer
  rw [standing_passUp]
  split <;> rfl

/-! ### Fast orders -/

theorem standing_actLaneMask (lanes : BitVec 256) (action : Admin) (s : State) :
    standing (actLaneMask lanes action s) = standing s := by
  unfold actLaneMask
  dsimp only
  split
  · exact standing_capacityFreed _
  · rfl

theorem standing_actAbort (s : State) : standing (actAbort s) = standing s := by
  rw [actAbort_eq, freeAll_only]; rfl

theorem standing_actSeal (s : State) : standing (actSeal s) = standing s := by
  by_cases opened : s.voyage = .opened
  · rw [actSeal_open opened, freeAll_only]; rfl
  · unfold actSeal; rw [if_neg opened]

@[simp] theorem standing_advanceRec (l : Lane) (s : State) (h : Handle) : standing (advanceRec l s h) = standing s := by
  unfold advanceRec
  dsimp only
  split <;> simp

@[simp] theorem standing_advanceLane (l : Lane) (hs : List Handle) : ∀ s : State,
    standing (advanceLane l hs s) = standing s := by
  induction hs with
  | nil => exact fun _ => rfl
  | cons h t ih => intro s; rw [advanceLane, ih]; split <;> simp

@[simp] theorem standing_advanceLanes (xs : List (Lane × LaneSlot)) : ∀ s : State,
    standing (advanceLanes xs s) = standing s := by
  induction xs with
  | nil => exact fun _ => rfl
  | cons x t ih => intro s; simp [advanceLanes, ih]

theorem standing_actUnseal (advance : Bool) (s : State) : standing (actUnseal advance s) = standing s := by
  have open_ : standing { s with voyage := .opened } = standing s := rfl
  unfold actUnseal
  dsimp only
  split
  · split <;> simp [open_]
  · rfl

theorem standing_actCancel (m : Mark) (s : State) : standing (actCancel m s) = standing s := by
  have held : standing (cancelHeld s m) = standing s := by unfold cancelHeld; split <;> rfl
  unfold actCancel
  dsimp only
  split
  · exact held
  · split <;> simp [cancelReservation, held]

/-! ### Addressed requests -/

/-- A command that takes a frame leaves standing what its action leaves. -/
theorem standing_takeFrame {p : InPort} {f : Frame} {mine : State → Bool} {act : State → State}
    (k : ∀ u, standing (act u) = standing u) (s : State) : standing (takeFrame p f mine act s) = standing s := by
  have line : standing (if (rxQueue s p).head? = some f then s else arrive s p f) = standing s := by split <;> simp
  unfold takeFrame
  split
  · rfl
  · dsimp only
    generalize (if (rxQueue s p).head? = some f then s else arrive s p f) = w at line ⊢
    rw [standing_endEvent]
    split
    · rw [k, standing_setRxQueue, line]
    · exact line

theorem standing_takeOrder {f : Frame} {act : State → State} (k : ∀ u, standing (act u) = standing u) (s : State) :
    standing (takeOrder f act s) = standing s :=
  standing_takeFrame (fun u => (k _).trans (standing_passDown u f)) s

@[simp] theorem standing_finish (q : ReqHead) (a : Answer) : standing (finish q a) = standing a.st := by
  unfold finish follow
  split <;> simp

theorem standing_serve {q : ReqHead} {body : ReqBody} {act : State → Answer} (k : ∀ u, standing (act u).st = standing u)
    (s : State) : standing (serve q body act s) = standing s :=
  standing_takeFrame (act := fun u => finish q (clearPending (act u))) (fun u => (standing_finish q _).trans (k u)) s

theorem standing_actReadProfile (item : ProfileItem) (s : State) : standing (actReadProfile item s).st = standing s := by
  unfold actReadProfile
  split
  case h_2 => split <;> rfl
  case h_3 =>
    split
    · rfl
    · split <;> rfl
  case h_4 => split <;> rfl
  case h_5 => split <;> rfl
  all_goals rfl

theorem standing_actReadUnit (key : UnitKey) (s : State) : standing (actReadUnit key s).st = standing s := by
  unfold actReadUnit readMark
  split
  · split <;> rfl
  · split <;> rfl

theorem standing_actReadLane (l : Lane) (n : Nat) (s : State) : standing (actReadLane l n s).st = standing s := by
  unfold actReadLane
  split
  · rfl
  split
  · rfl
  split <;> rfl

theorem standing_actEvaluate (d : Desc) (lane : Option Lane) (s : State) : standing (actEvaluate d lane s).st = standing s := by
  unfold actEvaluate evaluateAll
  split
  · split
    · rfl
    · dsimp only; split <;> rfl
  · split
    · rfl
    · split <;> rfl

theorem standing_actReadHoldList (n : Nat) (s : State) : standing (actReadHoldList n s).st = standing s := by
  unfold actReadHoldList
  split
  · rfl
  split <;> rfl

theorem standing_actWriteRange (base count : Nat) (s : State) : standing (actWriteRange base count s).st = standing s := by
  unfold actWriteRange
  split
  · rfl
  split <;> rfl

theorem standing_actWriteLane (l : Lane) (f : LaneFields) (s : State) : standing (actWriteLane l f s).st = standing s := by
  have define_ : standing (defineLane s l f).st = standing s := by
    unfold defineLane
    split
    · rfl
    split
    · rfl
    split
    · exact standing_setEntry ..
    · rfl
  have update (e : LaneEntry) : standing (updateLane s l e f).st = standing s := by
    unfold updateLane
    split
    · rfl
    dsimp only
    split
    · simp
    · rfl
  unfold actWriteLane
  split
  · rfl
  split
  · exact define_
  · exact update _

theorem standing_actUndefineLane (l : Lane) (s : State) : standing (actUndefineLane l s).st = standing s := by
  unfold actUndefineLane
  split
  · rfl
  split
  · rfl
  · exact standing_setEntry ..

theorem standing_actWriteDeck (deck limit : Nat) (s : State) : standing (actWriteDeck deck limit s).st = standing s := by
  unfold actWriteDeck
  split
  · rfl
  split
  · split <;> rfl
  split
  · rfl
  split
  · rfl
  split <;> rfl

theorem standing_actRemoveDeck (deck : Nat) (s : State) : standing (actRemoveDeck deck s).st = standing s := by
  unfold actRemoveDeck
  split
  · rfl
  split
  · rfl
  split <;> rfl

theorem standing_actWriteSection (id : Nat) (hoist covered : List Lane) (reduced : Nat) (travel : Option Nat) (s : State) :
    standing (actWriteSection id hoist covered reduced travel s).st = standing s := by
  unfold actWriteSection
  split
  · rfl
  split
  · rfl
  split <;> rfl

theorem standing_actRemoveSection (id : Nat) (s : State) : standing (actRemoveSection id s).st = standing s := by
  unfold actRemoveSection
  split
  · rfl
  split <;> rfl

theorem standing_actWriteSegregation (ts : List (Nat × Nat × Nat)) (s : State) :
    standing (actWriteSegregation ts s).st = standing s := by
  unfold actWriteSegregation
  split
  · rfl
  split <;> rfl

theorem standing_actWriteLimits (hLim tMin tMax : Option Int) (s : State) :
    standing (actWriteLimits hLim tMin tMax s).st = standing s := by
  unfold actWriteLimits
  dsimp only
  split
  · rfl
  · dsimp only [taken, answer]
    split
    · rfl
    · exact standing_testStability _

theorem standing_actWritePolicy (f : PolicyFields) (s : State) : standing (actWritePolicy f s).st = standing s := by
  unfold actWritePolicy
  split <;> rfl

theorem standing_actWriteGaps (g : PerKind (Option Nat)) (s : State) : standing (actWriteGaps g s).st = standing s := by
  unfold actWriteGaps
  split
  · rfl
  split <;> rfl

theorem standing_actWriteDefaultUnit (d : Desc) (s : State) : standing (actWriteDefaultUnit d s).st = standing s := by
  unfold actWriteDefaultUnit
  split
  · rfl
  split
  · rfl
  split <;> rfl

theorem standing_actTrial (d : Desc) (s : State) : standing (actTrial d s).st = standing s := by
  have place (u : UnitDesc) (b : Best) : standing (placeTrial s u b).st = standing s := by
    unfold placeTrial
    split
    · rfl
    · rename_i e
      exact ((standing_listAtTail ..).trans (standing_setRec ..)).trans (standing_allocate e)
  unfold actTrial
  split
  · rfl
  split
  · rfl
  split
  · rfl
  split
  · rfl
  split
  · rfl
  split
  · rfl
  · exact place ..

theorem standing_actUndo (s : State) : standing (actUndo s).st = standing s := by
  unfold actUndo
  split
  · rfl
  · exact standing_freeRec _ _

theorem standing_actCommitTrials (s : State) : standing (actCommitTrials s).st = standing s := by
  unfold actCommitTrials
  split
  · rfl
  · dsimp only; rw [commitEach_only]; rfl

theorem standing_actOpenVoyage (s : State) : standing (actOpenVoyage s).st = standing s := by
  unfold actOpenVoyage
  split
  · rfl
  split <;> rfl

theorem standing_actClearVoyage (s : State) : standing (actClearVoyage s).st = standing s := by
  have second : standing (clearSecond s).st = standing s := by
    unfold clearSecond
    dsimp only
    split
    · exact standing_emitAllRet _ _
    · rfl
  unfold actClearVoyage
  split
  · rfl
  split
  · exact second
  · rfl

theorem standing_actBallast (heel trim : BitVec 32) (s : State) : standing (actBallast heel trim s).st = standing s := by
  unfold actBallast
  split
  · rfl
  · exact standing_testStability _

theorem standing_actDrainLog (count : Nat) (s : State) : standing (actDrainLog count s).st = standing s := by
  unfold actDrainLog
  split <;> rfl

/-! ### Every command -/

/-- A command that answers with a state has that one as its next. -/
theorem standing_next {s x t : State} (k : standing x = standing s)
    (h : (.next x : Host.Outcome State Fault Refusal) = .next t) : standing t = standing s := by
  cases h; exact k

theorem standing_frameArrival {p : InPort} {wire : List Byte} {f : Frame} {s t : State}
    (h : execFrameArrival p wire f s = .next t) : standing t = standing s := by
  unfold execFrameArrival at h
  split at h
  · exact standing_next rfl h
  · split at h
    · exact standing_next rfl h
    · exact standing_next (by simp) h
    · exact standing_next (by simp) h

theorem standing_arbiterSend {o : OutPort} {heldOff : Bool} {s t : State} (h : execArbiterSend o heldOff s = .next t) :
    standing t = standing s := by
  unfold execArbiterSend at h
  split at h
  · exact standing_next rfl h
  · split at h
    · exact standing_next (standing_sendFwd s) h
    · exact standing_next (standing_sendRet s) h

theorem standing_travelTimerExpiry {id : Nat} {s t : State} (h : execTravelTimerExpiry id s = .next t) :
    standing t = standing s := by
  unfold execTravelTimerExpiry at h
  split at h
  · exact standing_next rfl h
  · refine standing_next ?_ h
    split
    · simp [expireTravel]
    · rfl

theorem standing_offerDeadline {g : Handle} {s t : State} (h : execOfferDeadline g s = .next t) :
    standing t = standing s := by
  refine standing_next ?_ h
  split <;> simp

theorem standing_reservationLapse {g : Handle} {s t : State} (h : execReservationLapse g s = .next t) :
    standing t = standing s := by
  refine standing_next ?_ h
  split
  · simp [lapse]
  · rfl

/-- No command but POWER_ON touches the queue or the straps. -/
theorem standing_exec {c : Instr} {s t : State} (ne : ∀ r p, c ≠ .powerOn r p) (h : exec c s = .next t) :
    standing t = standing s := by
  cases c with
  | powerOn r p => exact absurd rfl (ne r p)
  | resetAssert => exact standing_next (x := { s with inReset := true, drivenFwd := none, drivenRet := none }) rfl h
  | stowClockTick =>
    refine standing_next ?_ (show execStowClockTick s = .next t from h)
    split <;> rfl
  | offerDeadline g => exact standing_offerDeadline h
  | reservationLapse g => exact standing_reservationLapse h
  | travelTimerExpiry id => exact standing_travelTimerExpiry h
  | reportTimerExpiry =>
    refine standing_next ?_ (show execReportTimerExpiry s = .next t from h)
    split <;> rfl
  | frameArrival p wire f => exact standing_frameArrival h
  | arbiterSend o held => exact standing_arbiterSend h
  | passThrough p f => exact standing_next (standing_takeFrame (fun u => by cases p <;> rfl) s) h
  | checkIn c => exact standing_next (standing_takeFrame (standing_actCheckIn c) s) h
  | confirm c => exact standing_next (standing_takeFrame (standing_actConfirm c) s) h
  | freed pos => exact standing_next (standing_takeFrame (standing_actFreed pos) s) h
  | tallyOn m l d placed => exact standing_next (standing_takeFrame (standing_actTallyOn m l d placed) s) h
  | tallyOff m l removed => exact standing_next (standing_takeFrame (standing_actTallyOff m l removed) s) h
  | hoistStatusDown target id => exact standing_next (standing_takeFrame (standing_actHoistStatus target id true) s) h
  | hoistStatusUp target id => exact standing_next (standing_takeFrame (standing_actHoistStatus target id false) s) h
  | trailer n count => exact standing_next (standing_takeFrame (standing_actTrailer n count) s) h
  | reportToken k => exact standing_next (standing_takeFrame (standing_actReportToken k) s) h
  | laneMask lanes action => exact standing_next (standing_takeOrder (standing_actLaneMask lanes action) s) h
  | abort => exact standing_next (standing_takeOrder standing_actAbort s) h
  | sealOrder => exact standing_next (standing_takeOrder standing_actSeal s) h
  | unsealOrder advance => exact standing_next (standing_takeOrder (standing_actUnseal advance) s) h
  | cancel m => exact standing_next (standing_takeOrder (standing_actCancel m) s) h
  | clock value =>
    have set (u : State) : standing { u with stowClock := value } = standing u := rfl
    exact standing_next (standing_takeOrder set s) h
  | identify => exact standing_next (standing_takeOrder (fun u => standing_emitRet u (identFrame u)) s) h
  | requestPassedOn q body => exact standing_next (standing_takeFrame (fun u => standing_passDown u (.request q body)) s) h
  | noEngineReply q body => exact standing_next (standing_takeFrame (fun u => standing_emitRet u _) s) h
  | unknownRequest q kind body => exact standing_next (standing_serve (fun _ => rfl) s) h
  | writeRange q base count => exact standing_next (standing_serve (standing_actWriteRange base count) s) h
  | writeLane q l f => exact standing_next (standing_serve (standing_actWriteLane l f) s) h
  | writeLaneUndefine q l => exact standing_next (standing_serve (standing_actUndefineLane l) s) h
  | writeDeck q deck limit => exact standing_next (standing_serve (standing_actWriteDeck deck limit) s) h
  | writeDeckRemove q deck => exact standing_next (standing_serve (standing_actRemoveDeck deck) s) h
  | writeSection q id hoist covered reduced travel =>
    exact standing_next (standing_serve (standing_actWriteSection id hoist covered reduced travel) s) h
  | writeSectionRemove q id => exact standing_next (standing_serve (standing_actRemoveSection id) s) h
  | writeSegregation q ts => exact standing_next (standing_serve (standing_actWriteSegregation ts) s) h
  | writeLimits q hLim tMin tMax => exact standing_next (standing_serve (standing_actWriteLimits hLim tMin tMax) s) h
  | writePolicy q f => exact standing_next (standing_serve (standing_actWritePolicy f) s) h
  | writeGaps q g => exact standing_next (standing_serve (standing_actWriteGaps g) s) h
  | writeDefaultUnit q d => exact standing_next (standing_serve (standing_actWriteDefaultUnit d) s) h
  | readProfile q item => exact standing_next (standing_serve (standing_actReadProfile item) s) h
  | readUnit q key => exact standing_next (standing_serve (standing_actReadUnit key) s) h
  | readLane q l start => exact standing_next (standing_serve (standing_actReadLane l start) s) h
  | readStowSummary q => exact standing_next (standing_serve (fun _ => rfl) s) h
  | evaluate q d l => exact standing_next (standing_serve (standing_actEvaluate d l) s) h
  | trial q d => exact standing_next (standing_serve (standing_actTrial d) s) h
  | undo q => exact standing_next (standing_serve standing_actUndo s) h
  | commitTrials q => exact standing_next (standing_serve standing_actCommitTrials s) h
  | readHoldList q start => exact standing_next (standing_serve (standing_actReadHoldList start) s) h
  | deploy q id => exact standing_next (standing_serve (standing_actDeploy id) s) h
  | stow q id => exact standing_next (standing_serve (standing_actStow id) s) h
  | openVoyage q => exact standing_next (standing_serve standing_actOpenVoyage s) h
  | clearVoyage q =>
    exact standing_next (standing_takeFrame (fun u => (standing_finish q _).trans (standing_actClearVoyage u)) s) h
  | ballast q heel trim => exact standing_next (standing_serve (standing_actBallast heel trim) s) h
  | readVoyage q => exact standing_next (standing_serve (fun _ => rfl) s) h
  | report q f => exact standing_next (standing_serve (standing_actReport f) s) h
  | drainLog q count => exact standing_next (standing_serve (standing_actDrainLog count) s) h
  | ackNotices q flags => exact standing_next (standing_serve (fun _ => rfl) s) h
  | setEnables q enables => exact standing_next (standing_serve (fun _ => rfl) s) h

/-- Every command ends in a next state: the three that test before they answer do so on each branch. -/
theorem exec_completes (c : Instr) (s : State) : ∃ t, exec c s = .next t := by
  cases c with
  | travelTimerExpiry id =>
    change ∃ t, execTravelTimerExpiry id s = .next t
    unfold execTravelTimerExpiry
    split <;> exact ⟨_, rfl⟩
  | frameArrival p wire f =>
    change ∃ t, execFrameArrival p wire f s = .next t
    unfold execFrameArrival
    split
    · exact ⟨_, rfl⟩
    · split <;> exact ⟨_, rfl⟩
  | arbiterSend o heldOff =>
    change ∃ t, execArbiterSend o heldOff s = .next t
    unfold execArbiterSend
    split
    · exact ⟨_, rfl⟩
    · split <;> exact ⟨_, rfl⟩
  | _ => exact ⟨_, rfl⟩

/-- Settles O2: POWER_ON takes the queue over by itself; every other command leaves queue and straps standing. -/
theorem everyCommandAnswersInPlace : Obligations.EveryCommandAnswersInPlace := by
  refine ⟨exec_completes, fun c s t h => ⟨?_, fun ne => (standing_eq_iff.1 (standing_exec ne h)).2⟩⟩
  cases c with
  | powerOn r p => cases h; rfl
  | _ => exact (standing_eq_iff.1 (standing_exec (fun _ _ => Instr.noConfusion) h)).1

end Sys2Proof.Machine

namespace Sys2Proof.Machine

/-! # What every step keeps of the voyage (O59)

What a step may list depends on the voyage: in OPEN everything, in CLOSED only what is ABOARD or LEFT, in SETUP nothing. So
an operation that lists is settled where it tests the voyage (`of_opened`) or behind the test for SETUP (`AtSea`), and every
other one keeps the conditions in every voyage. -/

/-- An operation that leaves the straps standing leaves the role. -/
theorem role_of_standing {s t : State} (e : standing s = standing t) : s.role = t.role := (standing_eq_iff.1 e).2.1

namespace VoyageConsistent

/-! ## The conditions by voyage -/

/-- In OPEN the conditions come to what R106 says of a MID or TAIL. -/
theorem of_opened {s : State} (opened : s.voyage = .opened) (holder : s.role = .mid ∨ s.role = .tail → s.holds = []) :
    VoyageConsistent s where
  offers shut := absurd opened shut
  reservations shut := absurd opened shut
  trials shut := absurd opened shut
  holds shut := absurd opened shut
  holder := holder
  pendingClear setup := by rw [opened] at setup; cases setup
  records setup := by rw [opened] at setup; cases setup
  departures setup := by rw [opened] at setup; cases setup
  lanes setup := by rw [opened] at setup; cases setup

/-- A state without cargo and without held units meets them in every voyage. -/
theorem of_blank {s : State} (blank : Blank s) (holds : s.holds = []) (pendingClear : s.pendingClear = false) :
    VoyageConsistent s :=
  ⟨fun _ => blank.offers, fun _ => blank.reservations, fun _ => blank.trials, fun _ => holds, fun _ => holds,
    fun _ => pendingClear, fun _ => blank.records, fun _ => blank.departures, fun _ => blank.lanes⟩

variable {s : State} (v : VoyageConsistent s)
include v

/-- An offer is listed in OPEN alone (R150, R153). -/
theorem opened_of_offer {h : Handle} (listed : h ∈ s.offers) : s.voyage = .opened :=
  Decidable.not_not.1 fun shut => by rw [v.offers shut] at listed; cases listed

/-- A trial is stacked in OPEN alone (R111). -/
theorem opened_of_trial {h : Handle} {rest : List Handle} (stack : s.trials = h :: rest) : s.voyage = .opened :=
  Decidable.not_not.1 fun shut => by rw [v.trials shut] at stack; cases stack

/-- In SETUP a record read is FREE (R150). -/
theorem getRec_setup (setup : s.voyage = .setup) (h : Handle) : getRec s h = freeRecord := by
  unfold getRec; rw [v.records setup]; rfl

/-! ## Notices, ports and the report -/

theorem after_raiseNotice (n : Notice) : VoyageConsistent (raiseNotice s n) := { v with }
theorem after_emitFwd (f : Frame) : VoyageConsistent (emitFwd s f) := { v with }
theorem after_emitRet (f : Frame) : VoyageConsistent (emitRet s f) := { v with }
theorem after_passDown (f : Frame) : VoyageConsistent (passDown s f) := { v with }
theorem after_passUp (f : Frame) : VoyageConsistent (passUp s f) := { v with }
theorem after_setSection (id : Nat) (e : SectionEntry) : VoyageConsistent (setSection s id e) := { v with }
theorem after_emitAttention : VoyageConsistent (emitAttention s) := { v with }
theorem after_endReport : VoyageConsistent (endReport s) := { v with }

theorem after_emitAllRet (fs : List Frame) : VoyageConsistent (emitAllRet fs s) := by rw [emitAllRet_eq]; exact { v with }
theorem after_emitDown (f : Option Frame) : VoyageConsistent (emitDown s f) := by rw [emitDown_eq]; exact { v with }

theorem after_post (k : ExcKind) (m : Option Mark) (l : Option Lane) (m2 : Option Mark) (d : Option ExcDetail) :
    VoyageConsistent (post s k m l m2 d) := by rw [post_only]; exact { v with }

theorem after_testStability : VoyageConsistent (testStability s) := by rw [testStability_only]; exact { v with }

omit v in
theorem after_endEvent {t : State} (v : VoyageConsistent t) : VoyageConsistent (endEvent s t) := by
  unfold endEvent; split
  · exact v.after_emitAttention
  · exact v

/-! ## Records, lanes and lists -/

/-- A hold list with entries taken off it. -/
theorem with_holds {k : List HoldEntry} (sub : k.Sublist s.holds) : VoyageConsistent { s with holds := k } :=
  { v with
    holds := fun shut => List.sublist_nil.1 (v.holds shut ▸ sub)
    holder := fun role => List.sublist_nil.1 (v.holder role ▸ sub) }

/-- A record written; one that was FREE stays so. -/
theorem after_setRec {h : Handle} {r : UnitRec} (blank : getRec s h = freeRecord → r = freeRecord) :
    VoyageConsistent (setRec s h r) :=
  { v with
    records := fun setup => by rw [setRec_records, if_pos (blank (v.getRec_setup setup h)), v.records setup]; rfl }

/-- Slots changed without a change of their occupant lists. -/
theorem after_modifySlot (l : Lane) {f : LaneSlot → LaneSlot} (same : ∀ x, (f x).occupants = x.occupants) :
    VoyageConsistent (modifySlot s l f) := by
  have occupants : (modifySlot s l f).lanes.map LaneSlot.occupants = s.lanes.map LaneSlot.occupants := by
    rw [modifySlot_lanes]; split
    · exact map_modify_same _ _ same _ _
    · rfl
  have empty : s.voyage = .setup → ∀ x ∈ (modifySlot s l f).lanes, x.occupants = [] := fun setup x hx => by
    have listed := List.mem_map_of_mem (f := LaneSlot.occupants) hx
    rw [occupants] at listed
    obtain ⟨y, hy, e⟩ := List.mem_map.1 listed
    rw [← e]; exact v.lanes setup y hy
  rw [modifySlot_only]
  exact { v with lanes := empty }

theorem after_setSuspect (l : Lane) (b : Bool) : VoyageConsistent (setSuspect s l b) := v.after_modifySlot l fun _ => rfl
theorem after_setEntry (l : Lane) (e : Option LaneEntry) : VoyageConsistent (setEntry s l e) :=
  v.after_modifySlot l fun _ => rfl

/-- Past SETUP the records, the lane lists and the order of departure may be anything. -/
theorem with_cargo (sailed : s.voyage ≠ .setup) (r : List (Handle × UnitRec)) (l : List LaneSlot) (d : List Handle) :
    VoyageConsistent { s with records := r, lanes := l, departures := d } :=
  { v with
    records := fun setup => absurd setup sailed
    departures := fun setup => absurd setup sailed
    lanes := fun setup => absurd setup sailed }

theorem after_freeRec (h : Handle) : VoyageConsistent (freeRec s h) := by
  by_cases setup : s.voyage = .setup
  · have dead : isLive (getRec s h).state = false := by rw [v.getRec_setup setup]; rfl
    have freed := v.after_setRec (h := h) fun _ => rfl
    rw [freeRec_dead dead]
    exact { freed with departures := fun _ => by rw [v.departures setup]; rfl }
  · rw [freeRec_only]; exact v.with_cargo setup ..

theorem after_withdrawOffer (h : Handle) : VoyageConsistent (withdrawOffer s h) := by
  have off : VoyageConsistent { s with offers := s.offers.filter (· != h) } :=
    { v with offers := fun shut => by rw [v.offers shut]; rfl }
  exact off.after_freeRec h

theorem after_dropReservation (h : Handle) : VoyageConsistent (dropReservation s h) := by
  have off : VoyageConsistent { s with reservations := s.reservations.filter (· != h) } :=
    { v with reservations := fun shut => by rw [v.reservations shut]; rfl }
  exact off.after_freeRec h

/-! ## The bid chain (chapter 4) -/

/-- An engine that bids is OPEN (R80). -/
theorem after_bidStep (c : CheckIn) : VoyageConsistent (bidStep s c).2 := by
  cases acts : bidPasses s c with
  | true => rw [bidStep_passes acts]; exact v
  | false =>
    obtain ⟨opened, -⟩ := bidPasses_false_iff.1 acts
    have offered (u : UnitDesc) (l : Lane) : VoyageConsistent (placeOffer s u c.sequence l) := by
      cases e : allocate s with
      | none => unfold placeOffer; rw [e]; exact v
      | some x =>
        obtain ⟨h, a⟩ := x
        rw [placeOffer_eq e, listAtTail_only, allocate_only e]
        exact of_opened opened v.holder
    have rejoined (h : Handle) : VoyageConsistent (joinReservations s h) := of_opened opened v.holder
    unfold bidStep
    rw [acts, if_neg Bool.false_ne_true]
    split
    · unfold bidDuplicate
      dsimp only
      split
      · exact v
      · dsimp only; split
        · exact rejoined _
        · exact v
    split
    · exact v
    · unfold bidCompete
      split
      · exact v.after_raiseNotice _
      split
      · exact v
      split
      · exact v
      split
      · exact offered ..
      · exact v

/-- A late CONFIRM reserves in OPEN alone (R93). -/
theorem after_lateConfirm (c : Confirm) (l : Lane) : VoyageConsistent (lateConfirm s c l).2 := by
  unfold lateConfirm
  split
  · rename_i u unit
    obtain ⟨-, opened, -⟩ := lateUnit_iff.1 unit
    dsimp only
    cases e : allocate s with
    | none => unfold lateReserve; rw [e]; exact v
    | some x =>
      obtain ⟨h, a⟩ := x
      rw [lateReserve_eq e]
      refine after_post ?_ ..
      rw [joinReservations_only, listAtTail_only, allocate_only e]
      exact of_opened opened v.holder
  · dsimp only; split
    · exact v.after_emitFwd _
    · exact (v.after_raiseNotice _).after_emitFwd _

theorem after_confirmStep (c : Confirm) : VoyageConsistent (confirmStep s c).2 := by
  have other : VoyageConsistent (confirmOther s c) := by
    unfold confirmOther; split
    · exact v.after_withdrawOffer _
    · exact v
  have winner (l : Lane) : VoyageConsistent (confirmWinner s c l).2 := by
    unfold confirmWinner
    split
    · rename_i h matching
      dsimp only; split
      · exact (v.after_withdrawOffer h).after_emitFwd _
      · exact of_opened (v.opened_of_offer (matchingOffer_some matching).1) v.holder
    split
    · split <;> exact v
    · exact v.after_lateConfirm c l
  unfold confirmStep
  split
  · split
    · exact winner _
    · exact other
  all_goals exact other

/-- A HEAD or SOLE holds a unit in OPEN alone (R94). -/
theorem after_headConsume (owner : s.role = .head ∨ s.role = .sole) (c : Confirm) : VoyageConsistent (headConsume s c) := by
  have hold (r : NoneReason) : VoyageConsistent (holdUnit s c r) := by
    unfold holdUnit
    split
    · exact v.after_emitFwd _
    rename_i opened
    split
    · exact v.after_emitFwd _
    dsimp only
    split
    · refine of_opened (by simpa using opened) fun role => ?_
      revert owner role; cases s.role <;> simp
    · exact (v.after_emitFwd _).after_raiseNotice _
  unfold headConsume
  split
  case h_2 => exact hold _
  all_goals exact v

theorem after_stampState (c : CheckIn) : VoyageConsistent (stampState s c) := by
  have counted : VoyageConsistent { s with chainSeq := s.chainSeq + 1 } := { v with }
  unfold stampState
  split
  · exact counted
  · exact counted.with_holds List.filter_sublist

theorem after_settleTail (c : CheckIn) : VoyageConsistent (settleTail s c) :=
  ((v.after_emitDown _).after_confirmStep _).after_emitRet _

theorem after_settleSole (owner : s.role = .head ∨ s.role = .sole) (c : CheckIn) : VoyageConsistent (settleSole s c) :=
  ((v.after_emitDown _).after_confirmStep _).after_headConsume (by rw [role_of_standing (t := s) (by simp)]; exact owner) _

theorem after_startRetry : VoyageConsistent (startRetry s) := by
  unfold startRetry
  split
  · exact v
  split
  · exact v
  · rename_i e rest holds
    have popped : VoyageConsistent { s with holds := rest } := v.with_holds (holds ▸ List.sublist_cons_self e rest)
    have bid := (popped.after_stampState (retryFrame e)).after_bidStep (stampFrame { s with holds := rest } (retryFrame e))
    dsimp only
    split
    · rename_i sole
      have role := role_of_standing ((standing_bidStep (stampState { s with holds := rest } (retryFrame e))
        (stampFrame { s with holds := rest } (retryFrame e))).trans (standing_stampState ..))
      exact bid.after_settleSole (.inr (role.trans sole)) _
    · exact bid.after_emitFwd _

theorem after_capacityFreed : VoyageConsistent (capacityFreed s) := by
  unfold capacityFreed
  split
  · exact v.after_emitRet _
  · exact v.after_emitRet _
  · exact v.after_startRetry
  · exact v.after_startRetry

theorem after_actCheckIn (c : CheckIn) : VoyageConsistent (actCheckIn c s) := by
  have bid := (v.after_stampState c).after_bidStep (stampFrame s c)
  unfold actCheckIn
  split
  · unfold checkInHead; split
    · exact v.after_emitFwd _
    · exact bid.after_passDown _
  · exact (v.after_bidStep c).after_passDown _
  · exact (v.after_bidStep c).after_settleTail _
  · rename_i sole
    unfold checkInSole; split
    · exact v.after_emitFwd _
    · have role := role_of_standing ((standing_bidStep (stampState s c) (stampFrame s c)).trans (standing_stampState s c))
      exact bid.after_settleSole (.inr (role.trans sole)) _

theorem after_actConfirm (c : Confirm) : VoyageConsistent (actConfirm c s) := by
  have role := role_of_standing (standing_confirmStep s c)
  have step := v.after_confirmStep c
  unfold actConfirm
  dsimp only
  split
  · rename_i head; exact step.after_headConsume (.inl (role.trans head)) _
  · rename_i sole; exact step.after_headConsume (.inr (role.trans sole)) _
  · exact step.after_passUp _
  · exact step.after_passUp _

theorem after_actFreed (p : Pos) : VoyageConsistent (actFreed p s) := by
  unfold actFreed
  split
  · exact v.after_passUp _
  · exact v.after_passUp _
  · exact v.after_startRetry
  · exact v.after_startRetry

end VoyageConsistent

/-! ## Tallies (chapter 6) -/

/-- The conditions past SETUP, where records may stand ABOARD or LEFT. -/
structure AtSea (s : State) : Prop extends VoyageConsistent s where
  sailed : s.voyage ≠ .setup

namespace AtSea
variable {s : State} (a : AtSea s)
include a

theorem with_cargo (r : List (Handle × UnitRec)) (l : List LaneSlot) (d : List Handle) :
    AtSea { s with records := r, lanes := l, departures := d } := ⟨a.toVoyageConsistent.with_cargo a.sailed r l d, a.sailed⟩

theorem with_log (l : List ExcRecord) (n : Seq) (f : NoticeSet) : AtSea { s with log := l, nextExc := n, notices := f } :=
  ⟨{ a with }, a.sailed⟩

theorem without_reservation (h : Handle) : AtSea { s with reservations := s.reservations.filter (· != h) } :=
  ⟨{ a with reservations := fun shut => by rw [a.reservations shut]; rfl }, a.sailed⟩

theorem without_offer (h : Handle) : AtSea { s with offers := s.offers.filter (· != h) } :=
  ⟨{ a with offers := fun shut => by rw [a.offers shut]; rfl }, a.sailed⟩

theorem after_setRec (h : Handle) (r : UnitRec) : AtSea (setRec s h r) := a.with_cargo ..
theorem after_setSuspect (l : Lane) (b : Bool) : AtSea (setSuspect s l b) := by rw [setSuspect_only]; exact a.with_cargo ..
theorem after_unlist (h : Handle) : AtSea (unlist s h) := by rw [unlist_only]; exact a.with_cargo ..
theorem after_makeLeft (h : Handle) : AtSea (makeLeft s h) := by rw [makeLeft_only]; exact a.with_cargo ..
theorem after_promote (h : Handle) (l : Lane) : AtSea (promote s h l) := by rw [promote_only]; exact a.with_cargo ..
theorem after_listBehindAboard (h : Handle) (l : Lane) : AtSea (listBehindAboard s h l) := by
  rw [listBehindAboard_only]; exact a.with_cargo ..

theorem after_allocate {t : State} {h : Handle} (e : allocate s = some (h, t)) : AtSea t := by
  rw [allocate_only e]; exact (a.with_cargo t.records s.lanes t.departures).with_log s.log s.nextExc t.notices

theorem after_raiseNotice (n : Notice) : AtSea (raiseNotice s n) := a.with_log ..
theorem after_post (k : ExcKind) (m : Option Mark) (l : Option Lane) (m2 : Option Mark) (d : Option ExcDetail) :
    AtSea (post s k m l m2 d) := by rw [post_only]; exact a.with_log ..
theorem after_postLimit (m : Mark) (l : Lane) (f : List Check) : AtSea (postLimit s m l f) := by
  rw [postLimit_only]; exact a.with_log ..
theorem after_postExitOrder (b : State) (h : Handle) (m : Mark) : AtSea (postExitOrder b s h m) := by
  rw [postExitOrder_only]; exact a.with_log ..
theorem after_judge (m : Mark) (l : Lane) (rank : Nat) (r : Option UnitRec) : AtSea (judge s m l rank r) := by
  rw [judge_only]; exact a.with_log ..

theorem after_unrecorded (m : Mark) (l : Lane) : AtSea (unrecorded s m l).st :=
  ((a.after_post ..).after_setSuspect l true).after_raiseNotice _

theorem after_refusedForced : AtSea (refusedForced s) := by
  unfold refusedForced; split
  · exact a
  · exact a.after_raiseNotice _

theorem after_tallyCommit (m : Mark) (l : Lane) (h : Handle) : AtSea (tallyCommit s m l h).st :=
  ((a.without_reservation h).after_promote h l).after_judge ..

theorem after_tallyMove (m : Mark) (l : Lane) (h : Handle) : AtSea (tallyMove s m l h).st := by
  unfold tallyMove; split
  · have listed := ((a.without_reservation h).after_unlist h).after_listBehindAboard h l
    exact ((listed.after_post ..).after_postLimit ..).after_judge ..
  · exact a.after_unrecorded m l

theorem after_tallyConvert (m : Mark) (l : Lane) (h : Handle) : AtSea (tallyConvert s m l h).st := by
  unfold tallyConvert; split
  · exact (((((a.without_offer h).after_unlist h).after_setRec h _).after_listBehindAboard h l).after_post ..).after_judge ..
  · exact a.after_unrecorded m l

theorem after_tallyRestow (m : Mark) (l : Lane) (h : Handle) : AtSea (tallyRestow s m l h).st := by
  unfold tallyRestow; split
  · split
    · exact a.after_unrecorded m l
    · rename_i n b alloc
      have listed (r : UnitRec) := (((a.after_allocate alloc).after_setRec n r).after_makeLeft h).after_listBehindAboard n l
      exact ((((listed _).after_post ..).after_postExitOrder ..).after_postLimit ..).after_judge ..
  · exact a.after_refusedForced.after_unrecorded m l

theorem after_tallyForced (m : Mark) (l : Lane) (d : Option Desc) : AtSea (tallyForced s m l d).st := by
  unfold tallyForced; split
  · split
    · exact a.after_unrecorded m l
    · rename_i n b alloc
      have listed (r : UnitRec) := ((a.after_allocate alloc).after_setRec n r).after_listBehindAboard n l
      exact (((listed _).after_post ..).after_postLimit ..).after_judge ..
  · exact a.after_refusedForced.after_unrecorded m l

/-- No action of Table 6.2 offers, reserves, tries or holds. -/
theorem after_tallyOnAction (m : Mark) (l : Lane) (d : Option Desc) : VoyageConsistent (tallyOnAction s m l d).st := by
  unfold tallyOnAction
  split
  · split
    · exact (a.after_tallyForced m l d).toVoyageConsistent
    · exact a.toVoyageConsistent
  split
  · split
    · exact a.after_dropReservation _
    split
    · exact (a.after_tallyCommit ..).toVoyageConsistent
    · exact (a.after_tallyMove ..).toVoyageConsistent
  · split
    · exact (a.after_tallyConvert ..).toVoyageConsistent
    · exact a.toVoyageConsistent
  · split
    · exact (((a.after_makeLeft _).after_post ..).after_postExitOrder ..).toVoyageConsistent
    split
    · exact a.toVoyageConsistent
    · exact (a.after_tallyRestow ..).toVoyageConsistent
  · exact a.toVoyageConsistent

theorem after_tallyOffAction (m : Mark) : VoyageConsistent (tallyOffAction s m).st := by
  unfold tallyOffAction
  split
  · exact a.toVoyageConsistent
  split
  · exact ((a.after_makeLeft _).after_postExitOrder ..).toVoyageConsistent
  · exact a.toVoyageConsistent

end AtSea

namespace VoyageConsistent
variable {s : State} (v : VoyageConsistent s)
include v

/-- What every tally ends with (R118, R134, R135). -/
theorem after_tallyEnd (k : ExcKind) (m : Mark) (l : Lane) (changed flag freed : Bool) (f : Frame) :
    VoyageConsistent (tallyFreed (passDown (detect (postClosed s m l changed) k m l flag) f) freed) := by
  have closed : VoyageConsistent (postClosed s m l changed) := by
    unfold postClosed; split
    · exact v.after_post ..
    · exact v
  have detected : VoyageConsistent (detect (postClosed s m l changed) k m l flag) := by
    unfold detect; split
    · exact closed.after_post ..
    · exact closed
  unfold tallyFreed; split
  · exact (detected.after_passDown f).after_capacityFreed
  · exact detected.after_passDown f

theorem after_actTallyOn (m : Mark) (l : Lane) (d : Option Desc) (placed : Bool) :
    VoyageConsistent (actTallyOn m l d placed s) := by
  unfold actTallyOn; split
  · exact v.after_passDown _
  · rename_i sailed; exact (AtSea.after_tallyOnAction ⟨v, sailed⟩ m l d).after_tallyEnd ..

theorem after_actTallyOff (m : Mark) (l : Lane) (removed : Bool) : VoyageConsistent (actTallyOff m l removed s) := by
  unfold actTallyOff; split
  · exact v.after_passDown _
  · rename_i sailed; exact (AtSea.after_tallyOffAction ⟨v, sailed⟩ m).after_tallyEnd ..

/-! ## Hoistable decks (chapter 7) -/

omit v in
theorem after_postHeights (hs : List (Lane × Handle)) : ∀ {s : State}, VoyageConsistent s →
    VoyageConsistent (postHeights hs s) := by
  induction hs with
  | nil => exact id
  | cons x hs ih => exact fun v => ih (v.after_post ..)

omit v in
theorem after_withdrawAll (hs : List Handle) : ∀ {s : State}, VoyageConsistent s → VoyageConsistent (withdrawAll hs s) := by
  induction hs with
  | nil => exact id
  | cons h hs ih => exact fun v => ih (v.after_withdrawOffer h)

theorem after_downUnpermitted (id : Nat) (e : SectionEntry) : VoyageConsistent (downUnpermitted s id e) :=
  after_postHeights _ ((v.after_setSection ..).after_post ..)

theorem after_statusDown (id : Nat) (e : SectionEntry) : VoyageConsistent (statusDown s id e) := by
  unfold statusDown
  split
  · exact (v.after_setSection ..).after_capacityFreed
  · exact (v.after_setSection ..).after_post ..
  · exact v.after_downUnpermitted ..
  · exact v.after_downUnpermitted ..
  · exact v

theorem after_statusUp (id : Nat) (e : SectionEntry) : VoyageConsistent (statusUp s id e) := by
  unfold statusUp
  dsimp only
  split
  · exact v.after_setSection ..
  · exact (v.after_setSection ..).after_post ..
  · exact (v.after_setSection ..).after_post ..
  · exact (after_withdrawAll _ (v.after_setSection ..)).after_post ..
  · exact v

theorem after_actHoistStatus (target : Pos) (id : Nat) (down : Bool) :
    VoyageConsistent (actHoistStatus target id down s) := by
  unfold actHoistStatus
  refine after_passDown ?_ _
  split
  · split
    · exact v
    split
    · exact v.after_statusDown ..
    · exact v.after_statusUp ..
  · exact v

theorem after_startMove (id : Nat) (e : SectionEntry) (st : HoistState) (move : HoistMove) :
    VoyageConsistent (startMove s id e st move).st := (v.after_setSection ..).after_emitFwd _

theorem after_actDeploy (id : Nat) : VoyageConsistent (actDeploy id s).st := by
  unfold actDeploy
  split
  · exact v
  split
  · exact v
  split
  · exact v
  split
  · exact v
  · exact v.after_startMove ..

theorem after_actStow (id : Nat) : VoyageConsistent (actStow id s).st := by
  unfold actStow
  split
  · exact v
  split
  · exact v
  split
  · exact v
  split
  · exact v
  · exact v.after_startMove ..

/-! ## Stowage reports (chapter 9) -/

/-- Composing under CHANGED frees LEFT records and clears CHANGED, and a FREE record stays so (R168). -/
theorem after_settleChanged (h : Handle) : VoyageConsistent (settleChanged s h) := by
  unfold settleChanged
  split
  · exact v.after_freeRec h
  · exact v.after_setRec fun free => by rw [free]; rfl

omit v in
theorem after_settleAllChanged (hs : List Handle) : ∀ {s : State}, VoyageConsistent s →
    VoyageConsistent (settleAllChanged hs s) := by
  induction hs with
  | nil => exact id
  | cons h hs ih => exact fun v => ih (v.after_settleChanged h)

theorem after_composeSection (c : Criterion) (held : Token) : VoyageConsistent (composeSection s c held) := by
  have settled : VoyageConsistent (if c = .changed then settleAllChanged (sectionHandles s c) s else s) := by
    split
    · exact after_settleAllChanged _ v
    · exact v
  exact { settled with }

theorem after_actReport (f : CriterionField) : VoyageConsistent (actReport f s).st := by
  unfold actReport
  split
  · exact v
  split
  · exact v
  split
  · exact v
  · rename_i c _ _
    have numbered : VoyageConsistent { s with
        reportSerial := s.reportSerial + 1, report := some (s.reportSerial + 1, c), reportState := .sending } := { v with }
    exact numbered.after_composeSection ..

theorem after_actReportToken (t : Token) : VoyageConsistent (actReportToken t s) := by
  have ended : VoyageConsistent (endEarlierSection s) := by
    unfold endEarlierSection; split
    · exact { v with }
    · exact v
  have taken : VoyageConsistent (takeToken s t) := (ended.after_composeSection ..).after_emitRet _
  unfold actReportToken
  split
  · exact taken
  · exact taken
  · exact v.after_passDown _
  · exact v.after_passDown _

theorem after_actTrailer (serial : Byte) (count : Nat) : VoyageConsistent (actTrailer serial count s) := by
  unfold actTrailer
  refine after_passUp ?_ _
  split
  · exact v.after_endReport
  · exact v

theorem after_advanceSection : VoyageConsistent (advanceSection s) := by
  have passed (t : Token) : VoyageConsistent (passToken s t) := by
    unfold passToken
    split <;> exact { v with }
  unfold advanceSection
  split
  · exact v
  split
  · exact passed _
  · exact v.after_emitRet _

theorem after_reportSent (f : Frame) : VoyageConsistent (reportSent s f) := by
  have dropped : VoyageConsistent { s with buffer := s.buffer.drop Config.recordsPerFrame } := { v with }
  unfold reportSent
  split
  · split
    · exact v.after_advanceSection
    · exact v
  · split
    · exact dropped.after_advanceSection
    · exact v
  · split
    · exact v.after_endReport
    · exact v
  · exact v

theorem after_sendFwd : VoyageConsistent (sendFwd s) := by
  unfold sendFwd
  split
  · exact v
  · exact { v with }
  · exact { v with }

theorem after_sendRet : VoyageConsistent (sendRet s) := by
  unfold sendRet
  split
  · exact v
  · exact { v with }
  split
  · exact v
  · rename_i f t _
    have sent : VoyageConsistent { s with origRet := t, lastRet := .originated, drivenRet := some (driven f) } := { v with }
    exact sent.after_reportSent f

end VoyageConsistent
end Sys2Proof.Machine
namespace Sys2Proof.Machine

namespace VoyageConsistent
variable {s : State} (v : VoyageConsistent s)
include v

/-! ## Fast orders -/

omit v in
theorem after_freeAll (hs : List Handle) : ∀ {s : State}, VoyageConsistent s → VoyageConsistent (freeAll hs s) := by
  induction hs with
  | nil => exact id
  | cons h hs ih => exact fun v => ih (v.after_freeRec h)

/-- Emptied at a HEAD or SOLE, the hold list is empty at every role (R106, R109). -/
theorem shut_holds : (if s.role = .head ∨ s.role = .sole then [] else s.holds) = [] := by
  split
  · rfl
  · rename_i other
    refine v.holder ?_
    revert other; cases s.role <;> simp

/-- SEAL leaves nothing pending and no unit held (R153). -/
theorem after_actSeal : VoyageConsistent (actSeal s) := by
  by_cases opened : s.voyage = .opened
  · rw [actSeal_open opened, freeAll_only]
    exact
      { offers := fun _ => rfl, reservations := fun _ => rfl, trials := fun _ => rfl, holds := fun _ => v.shut_holds
        holder := fun _ => v.shut_holds, pendingClear := nofun, records := nofun, departures := nofun, lanes := nofun }
  · unfold actSeal; rw [if_neg opened]; exact v

theorem after_actAbort : VoyageConsistent (actAbort s) := by
  have freed := after_freeAll (s.offers ++ s.trials) v
  rw [freeAll_only] at freed
  rw [actAbort_eq, freeAll_only]
  exact
    { freed with
      offers := fun _ => rfl, trials := fun _ => rfl, holds := fun _ => v.shut_holds, holder := fun _ => v.shut_holds
      pendingClear := fun _ => rfl }

/-- A fallen rank leaves a FREE record FREE. -/
theorem after_advanceRec (l : Lane) (h : Handle) : VoyageConsistent (advanceRec l s h) := by
  unfold advanceRec
  dsimp only
  split
  · exact v.after_post ..
  · exact v.after_setRec fun free => by rw [free]; rfl

omit v in
theorem after_advanceLane (l : Lane) (hs : List Handle) : ∀ {s : State}, VoyageConsistent s →
    VoyageConsistent (advanceLane l hs s) := by
  induction hs with
  | nil => exact id
  | cons h hs ih =>
    refine fun v => ih ?_
    split
    · exact v.after_advanceRec l h
    · exact v

omit v in
theorem after_advanceLanes (xs : List (Lane × LaneSlot)) : ∀ {s : State}, VoyageConsistent s →
    VoyageConsistent (advanceLanes xs s) := by
  induction xs with
  | nil => exact id
  | cons x xs ih => exact fun v => ih (after_advanceLane _ _ v)

theorem after_actUnseal (advance : Bool) : VoyageConsistent (actUnseal advance s) := by
  have opened : VoyageConsistent { s with voyage := .opened } := of_opened rfl v.holder
  unfold actUnseal
  split
  · dsimp only; split
    · exact after_advanceLanes _ opened
    · exact opened
  · exact v

theorem after_actCancel (m : Mark) : VoyageConsistent (actCancel m s) := by
  have held : VoyageConsistent (cancelHeld s m) := by
    unfold cancelHeld; split
    · exact (v.with_holds List.filter_sublist).after_emitFwd _
    · exact v
  unfold actCancel
  dsimp only
  split
  · exact held
  split
  · exact ((held.after_dropReservation _).after_emitFwd _).after_capacityFreed
  · rename_i state
    exact held.after_setRec fun free => by rw [free] at state; cases state
  · exact held
  · exact held

theorem after_actLaneMask (lanes : BitVec 256) (action : Admin) : VoyageConsistent (actLaneMask lanes action s) := by
  have masked : VoyageConsistent { s with lanes := s.lanes.mapIdx fun i x => maskSlot lanes action (s.rangeBase + i) x } :=
    { v with
      lanes := fun setup x hx => by
        obtain ⟨i, hi, rfl⟩ := List.mem_mapIdx.1 hx
        have empty := v.lanes setup _ (List.getElem_mem hi)
        unfold maskSlot; split <;> exact empty }
  unfold actLaneMask
  dsimp only
  split
  · exact masked.after_capacityFreed
  · exact masked

/-! ## Time -/

theorem after_tickState : VoyageConsistent (tickState s) :=
  { v with records := fun setup => List.map_eq_nil_iff.2 (v.records setup) }

theorem after_lapse (h : Handle) : VoyageConsistent (lapse s h) :=
  (((v.after_dropReservation h).after_emitFwd _).after_raiseNotice _).after_capacityFreed

theorem after_expireTravel (id : Nat) (e : SectionEntry) : VoyageConsistent (expireTravel s id e) :=
  ((v.after_setSection ..).after_post ..).after_raiseNotice _

/-! ## Voyages -/

theorem after_actOpenVoyage : VoyageConsistent (actOpenVoyage s).st := by
  unfold actOpenVoyage
  split
  · exact v
  split
  · exact v
  · exact of_opened rfl v.holder

omit v in
theorem after_clearSecond : VoyageConsistent (clearSecond s).st := by
  have cleared : VoyageConsistent (clearedState s) := of_blank (blank_cleared s) rfl rfl
  have quiet : VoyageConsistent (abandonQuietly (clearedState s)) := { cleared with }
  unfold clearSecond
  dsimp only
  split
  · exact quiet.after_emitAllRet _
  · exact quiet

/-- Pending-clear is set outside SETUP alone (R156). -/
theorem after_actClearVoyage : VoyageConsistent (actClearVoyage s).st := by
  unfold actClearVoyage
  split
  · exact v
  rename_i sailed
  split
  · exact after_clearSecond
  · exact { v with pendingClear := fun setup => absurd setup sailed }

theorem after_actBallast (heel trim : BitVec 32) : VoyageConsistent (actBallast heel trim s).st := by
  have moved : VoyageConsistent { s with heelOffset := clampOffset heel, trimOffset := clampOffset trim } := { v with }
  unfold actBallast
  split
  · exact v
  · exact moved.after_testStability

/-! ## Trials (chapter 5) -/

theorem after_actTrial (d : Desc) : VoyageConsistent (actTrial d s).st := by
  unfold actTrial
  split
  · exact v
  rename_i opened
  have placed (u : UnitDesc) (b : Best) : VoyageConsistent (placeTrial s u b).st := by
    unfold placeTrial; split
    · exact v.after_raiseNotice _
    · rename_i alloc
      dsimp only [answer]
      rw [listAtTail_only, allocate_only alloc]
      exact of_opened (Decidable.not_not.1 opened) v.holder
  split
  · exact v
  split
  · exact v
  split
  · exact v
  split
  · exact v.after_raiseNotice _
  split
  · exact v
  · exact placed ..

theorem after_actUndo : VoyageConsistent (actUndo s).st := by
  unfold actUndo
  split
  · exact v
  · rename_i h rest stack
    have popped : VoyageConsistent { s with trials := rest } := of_opened (v.opened_of_trial stack) v.holder
    exact popped.after_freeRec h

theorem after_actCommitTrials : VoyageConsistent (actCommitTrials s).st := by
  unfold actCommitTrials
  split
  · exact v
  · dsimp only
    by_cases opened : s.voyage = .opened
    · rw [commitEach_only]; exact of_opened opened v.holder
    · rw [v.trials opened]; exact { v with trials := fun _ => rfl }

/-! ## Writes of the profile (chapter 1) -/

/-- The lanes of a new range are empty (R3). -/
theorem after_actWriteRange (base count : Nat) : VoyageConsistent (actWriteRange base count s).st := by
  unfold actWriteRange
  split
  · exact v
  split
  · exact v
  · exact { v with lanes := fun _ x hx => by rw [List.eq_of_mem_replicate hx]; rfl }

theorem after_actWriteLane (l : Lane) (f : LaneFields) : VoyageConsistent (actWriteLane l f s).st := by
  have defined : VoyageConsistent (defineLane s l f).st := by
    unfold defineLane
    split
    · exact v
    split
    · exact v
    split
    · exact v.after_setEntry ..
    · exact v
  have updated (e : LaneEntry) : VoyageConsistent (updateLane s l e f).st := by
    unfold updateLane
    split
    · exact v
    dsimp only
    split
    · exact (v.after_setEntry ..).after_setSuspect ..
    · exact v
  unfold actWriteLane
  split
  · exact v
  split
  · exact defined
  · exact updated _

theorem after_actUndefineLane (l : Lane) : VoyageConsistent (actUndefineLane l s).st := by
  unfold actUndefineLane
  split
  · exact v
  split
  · exact v
  · exact v.after_setEntry ..

theorem after_actWriteDeck (deck limit : Nat) : VoyageConsistent (actWriteDeck deck limit s).st := by
  have set : VoyageConsistent (setDeck s deck limit) := { v with }
  unfold actWriteDeck
  split
  · exact v
  split
  · split
    · exact v
    · exact set
  split
  · exact v
  split
  · exact v
  split
  · exact v
  · exact set

theorem after_actRemoveDeck (deck : Nat) : VoyageConsistent (actRemoveDeck deck s).st := by
  unfold actRemoveDeck
  split
  · exact v
  split
  · exact v
  split
  · exact v
  · exact { v with }

theorem after_actWriteSection (id : Nat) (hoist covered : List Lane) (reduced : Nat) (travel : Option Nat) :
    VoyageConsistent (actWriteSection id hoist covered reduced travel s).st := by
  unfold actWriteSection
  split
  · exact v
  split
  · exact v
  split
  · exact v
  · exact v.after_setSection ..

theorem after_actRemoveSection (id : Nat) : VoyageConsistent (actRemoveSection id s).st := by
  unfold actRemoveSection
  split
  · exact v
  split
  · exact v
  · exact { v with }

theorem after_actWriteSegregation (ts : List (Nat × Nat × Nat)) : VoyageConsistent (actWriteSegregation ts s).st := by
  unfold actWriteSegregation
  split
  · exact v
  split
  · exact v
  · exact { v with }

theorem after_actWriteLimits (hLim tMin tMax : Option Int) : VoyageConsistent (actWriteLimits hLim tMin tMax s).st := by
  have written : VoyageConsistent { s with limits := updatedLimits s.limits hLim tMin tMax } := { v with }
  unfold actWriteLimits
  dsimp only
  split
  · exact v
  · dsimp only [taken, answer]
    split
    · exact written
    · exact written.after_testStability

theorem after_actWritePolicy (f : PolicyFields) : VoyageConsistent (actWritePolicy f s).st := by
  unfold actWritePolicy
  split
  · exact v
  · exact { v with }

theorem after_actWriteGaps (g : PerKind (Option Nat)) : VoyageConsistent (actWriteGaps g s).st := by
  unfold actWriteGaps
  split
  · exact v
  split
  · exact v
  · exact { v with }

theorem after_actWriteDefaultUnit (d : Desc) : VoyageConsistent (actWriteDefaultUnit d s).st := by
  unfold actWriteDefaultUnit
  split
  · exact v
  split
  · exact v
  split
  · exact v
  · exact { v with }

theorem after_actDrainLog (count : Nat) : VoyageConsistent (actDrainLog count s).st := by
  unfold actDrainLog
  split
  · exact v
  · exact { v with }

end VoyageConsistent

/-! ## Reads change nothing -/

theorem actReadProfile_st (item : ProfileItem) (s : State) : (actReadProfile item s).st = s := by
  unfold actReadProfile
  split
  case h_2 => split <;> rfl
  case h_3 =>
    split
    · rfl
    · split <;> rfl
  case h_4 => split <;> rfl
  case h_5 => split <;> rfl
  all_goals rfl

theorem actReadUnit_st (key : UnitKey) (s : State) : (actReadUnit key s).st = s := by
  unfold actReadUnit readMark
  split <;> split <;> rfl

theorem actReadLane_st (l : Lane) (n : Nat) (s : State) : (actReadLane l n s).st = s := by
  unfold actReadLane
  split
  · rfl
  split
  · rfl
  split <;> rfl

theorem actEvaluate_st (d : Desc) (lane : Option Lane) (s : State) : (actEvaluate d lane s).st = s := by
  unfold actEvaluate evaluateAll
  split
  · split
    · rfl
    · dsimp only; split <;> rfl
  · split
    · rfl
    · split <;> rfl

theorem actReadHoldList_st (n : Nat) (s : State) : (actReadHoldList n s).st = s := by
  unfold actReadHoldList
  split
  · rfl
  split <;> rfl

/-! ## Taking a frame -/

namespace VoyageConsistent
variable {s : State} (v : VoyageConsistent s)
include v

/-- A command that takes a frame keeps the conditions where its action does. -/
theorem after_takeFrame {p : InPort} {f : Frame} {mine : State → Bool} {act : State → State}
    (k : ∀ {u}, VoyageConsistent u → VoyageConsistent (act u)) : VoyageConsistent (takeFrame p f mine act s) := by
  have line : VoyageConsistent (if (rxQueue s p).head? = some f then s else Machine.arrive s p f) := by
    split
    · exact v
    · exact v.arrive p f
  unfold takeFrame
  split
  · exact v
  · refine after_endEvent ?_
    generalize (if (rxQueue s p).head? = some f then s else Machine.arrive s p f) = w at line ⊢
    split
    · exact k (line.setRxQueue _ p)
    · exact line

theorem after_takeOrder {f : Frame} {act : State → State} (k : ∀ {u}, VoyageConsistent u → VoyageConsistent (act u)) :
    VoyageConsistent (takeOrder f act s) :=
  v.after_takeFrame fun u => k (u.after_passDown f)

omit v in
theorem after_finish (q : ReqHead) {a : Answer} (v : VoyageConsistent a.st) : VoyageConsistent (finish q a) := by
  have replied := v.after_emitRet (.reply q.tag a.st.position a.code a.body)
  unfold finish follow
  split
  · exact replied
  · exact replied.after_capacityFreed
  · exact replied.after_emitAttention
  · exact replied.after_emitAllRet _

/-- An addressed request clears pending-clear and keeps the conditions where its action does (R157). -/
theorem after_serve {q : ReqHead} {body : ReqBody} {act : State → Answer}
    (k : ∀ {u}, VoyageConsistent u → VoyageConsistent (act u).st) : VoyageConsistent (serve q body act s) :=
  v.after_takeFrame fun u => after_finish q (a := clearPending (act _)) { k u with pendingClear := fun _ => rfl }

/-- A read keeps the conditions. -/
theorem after_read {q : ReqHead} {body : ReqBody} {act : State → Answer} (same : ∀ u, (act u).st = u) :
    VoyageConsistent (serve q body act s) :=
  v.after_serve fun {u} w => (same u).symm ▸ w

/-! ## Every command -/

theorem after_passOn (p : InPort) (f : Frame) : VoyageConsistent (passOn p f s) := by
  cases p with
  | fwd => exact v.after_passDown f
  | ret => exact v.after_passUp f

omit v in
theorem of_next {x t : State} (w : VoyageConsistent x) (h : (.next x : Host.Outcome State Fault Refusal) = .next t) :
    VoyageConsistent t := by
  cases h; exact w

theorem after_frameArrival {p : InPort} {wire : List Byte} {f : Frame} {t : State}
    (h : execFrameArrival p wire f s = .next t) : VoyageConsistent t := by
  unfold execFrameArrival at h
  split at h
  · exact of_next v h
  split at h
  · exact of_next v h
  · exact of_next (after_endEvent (v.after_raiseNotice _)) h
  · exact of_next (after_endEvent (v.arrive p f)) h

theorem after_arbiterSend {o : OutPort} {heldOff : Bool} {t : State} (h : execArbiterSend o heldOff s = .next t) :
    VoyageConsistent t := by
  unfold execArbiterSend at h
  split at h
  · exact of_next v h
  split at h
  · exact of_next v.after_sendFwd h
  · exact of_next v.after_sendRet h

theorem after_travelTimerExpiry {id : Nat} {t : State} (h : execTravelTimerExpiry id s = .next t) : VoyageConsistent t := by
  unfold execTravelTimerExpiry at h
  split at h
  · exact of_next v h
  · refine of_next ?_ h
    split
    · exact after_endEvent (v.after_expireTravel ..)
    · exact v

theorem after_offerDeadline {g : Handle} {t : State} (h : execOfferDeadline g s = .next t) : VoyageConsistent t := by
  refine of_next ?_ h
  split
  · exact v.after_withdrawOffer g
  · exact v

theorem after_reservationLapse {g : Handle} {t : State} (h : execReservationLapse g s = .next t) : VoyageConsistent t := by
  refine of_next ?_ h
  split
  · exact after_endEvent (v.after_lapse g)
  · exact v

theorem after_reportTimerExpiry {t : State} (h : execReportTimerExpiry s = .next t) : VoyageConsistent t := by
  refine of_next ?_ h
  split
  · exact (v.after_emitRet _).after_endReport
  · exact v

theorem after_stowClockTick {t : State} (h : execStowClockTick s = .next t) : VoyageConsistent t := by
  refine of_next ?_ h
  split
  · exact v
  · exact v.after_tickState

/-- Every command keeps the conditions. -/
theorem after_exec (c : Instr) {t : State} (h : exec c s = .next t) : VoyageConsistent t := by
  cases c with
  | powerOn r p => exact of_next (of_blank (blank_powerOn _ p _) rfl rfl) h
  | resetAssert =>
    have shut : VoyageConsistent { s with inReset := true, drivenFwd := none, drivenRet := none } := { v with }
    exact of_next shut h
  | stowClockTick => exact v.after_stowClockTick h
  | offerDeadline g => exact v.after_offerDeadline h
  | reservationLapse g => exact v.after_reservationLapse h
  | travelTimerExpiry id => exact v.after_travelTimerExpiry h
  | reportTimerExpiry => exact v.after_reportTimerExpiry h
  | frameArrival p wire f => exact v.after_frameArrival h
  | arbiterSend o held => exact v.after_arbiterSend h
  | passThrough p f => exact of_next (v.after_takeFrame fun u => u.after_passOn p f) h
  | checkIn c => exact of_next (v.after_takeFrame fun u => u.after_actCheckIn c) h
  | confirm c => exact of_next (v.after_takeFrame fun u => u.after_actConfirm c) h
  | freed pos => exact of_next (v.after_takeFrame fun u => u.after_actFreed pos) h
  | tallyOn m l d placed => exact of_next (v.after_takeFrame fun u => u.after_actTallyOn m l d placed) h
  | tallyOff m l removed => exact of_next (v.after_takeFrame fun u => u.after_actTallyOff m l removed) h
  | hoistStatusDown target id => exact of_next (v.after_takeFrame fun u => u.after_actHoistStatus target id true) h
  | hoistStatusUp target id => exact of_next (v.after_takeFrame fun u => u.after_actHoistStatus target id false) h
  | trailer n count => exact of_next (v.after_takeFrame fun u => u.after_actTrailer n count) h
  | reportToken k => exact of_next (v.after_takeFrame fun u => u.after_actReportToken k) h
  | laneMask lanes action => exact of_next (v.after_takeOrder fun u => u.after_actLaneMask lanes action) h
  | abort => exact of_next (v.after_takeOrder fun u => u.after_actAbort) h
  | sealOrder => exact of_next (v.after_takeOrder fun u => u.after_actSeal) h
  | unsealOrder advance => exact of_next (v.after_takeOrder fun u => u.after_actUnseal advance) h
  | cancel m => exact of_next (v.after_takeOrder fun u => u.after_actCancel m) h
  | clock value =>
    have set {u : State} (w : VoyageConsistent u) : VoyageConsistent { u with stowClock := value } := { w with }
    exact of_next (v.after_takeOrder set) h
  | identify => exact of_next (v.after_takeOrder fun u => u.after_emitRet _) h
  | requestPassedOn q body => exact of_next (v.after_takeFrame fun u => u.after_passDown _) h
  | noEngineReply q body => exact of_next (v.after_takeFrame fun u => u.after_emitRet _) h
  | unknownRequest q kind body => exact of_next (v.after_read fun _ => rfl) h
  | writeRange q base count => exact of_next (v.after_serve fun u => u.after_actWriteRange base count) h
  | writeLane q l f => exact of_next (v.after_serve fun u => u.after_actWriteLane l f) h
  | writeLaneUndefine q l => exact of_next (v.after_serve fun u => u.after_actUndefineLane l) h
  | writeDeck q deck limit => exact of_next (v.after_serve fun u => u.after_actWriteDeck deck limit) h
  | writeDeckRemove q deck => exact of_next (v.after_serve fun u => u.after_actRemoveDeck deck) h
  | writeSection q id hoist covered reduced travel =>
    exact of_next (v.after_serve fun u => u.after_actWriteSection id hoist covered reduced travel) h
  | writeSectionRemove q id => exact of_next (v.after_serve fun u => u.after_actRemoveSection id) h
  | writeSegregation q ts => exact of_next (v.after_serve fun u => u.after_actWriteSegregation ts) h
  | writeLimits q hLim tMin tMax => exact of_next (v.after_serve fun u => u.after_actWriteLimits hLim tMin tMax) h
  | writePolicy q f => exact of_next (v.after_serve fun u => u.after_actWritePolicy f) h
  | writeGaps q g => exact of_next (v.after_serve fun u => u.after_actWriteGaps g) h
  | writeDefaultUnit q d => exact of_next (v.after_serve fun u => u.after_actWriteDefaultUnit d) h
  | readProfile q item => exact of_next (v.after_read (actReadProfile_st item)) h
  | readUnit q key => exact of_next (v.after_read (actReadUnit_st key)) h
  | readLane q l start => exact of_next (v.after_read (actReadLane_st l start)) h
  | readStowSummary q => exact of_next (v.after_read fun _ => rfl) h
  | evaluate q d l => exact of_next (v.after_read (actEvaluate_st d l)) h
  | trial q d => exact of_next (v.after_serve fun u => u.after_actTrial d) h
  | undo q => exact of_next (v.after_serve fun u => u.after_actUndo) h
  | commitTrials q => exact of_next (v.after_serve fun u => u.after_actCommitTrials) h
  | readHoldList q start => exact of_next (v.after_read (actReadHoldList_st start)) h
  | deploy q id => exact of_next (v.after_serve fun u => u.after_actDeploy id) h
  | stow q id => exact of_next (v.after_serve fun u => u.after_actStow id) h
  | openVoyage q => exact of_next (v.after_serve fun u => u.after_actOpenVoyage) h
  | clearVoyage q => exact of_next (v.after_takeFrame fun u => after_finish q u.after_actClearVoyage) h
  | ballast q heel trim => exact of_next (v.after_serve fun u => u.after_actBallast heel trim) h
  | readVoyage q => exact of_next (v.after_read fun _ => rfl) h
  | report q f => exact of_next (v.after_serve fun u => u.after_actReport f) h
  | drainLog q count => exact of_next (v.after_serve fun u => u.after_actDrainLog count) h
  | ackNotices q flags => exact of_next (v.after_serve fun u => { u with }) h
  | setEnables q enables => exact of_next (v.after_serve fun u => { u with }) h

end VoyageConsistent

/-- Settles O59: `VoyageConsistent.after_exec`, a chain of the operations that each command runs. -/
theorem stepKeepsVoyageConsistent : Obligations.StepKeepsVoyageConsistent := by
  intro s t v h
  unfold step at h
  split at h
  · exact VoyageConsistent.of_next v h
  · rename_i c rest _
    have popped : VoyageConsistent { s with pending := rest } := { v with }
    exact popped.after_exec c h

end Sys2Proof.Machine

namespace Sys2Proof.Machine

/-! # Reservations, withdrawals, trials and held units (O20, O25, O38, O47, O49) -/

/-! ## The reservation list (O25) -/

/-- Where a sorted list is cut at a bound, what follows the cut is beyond the bound. -/
theorem lt_of_mem_dropWhile {f : Handle → Nat} {d : Nat} {l : List Handle} (o : l.Pairwise fun a b => f a ≤ f b) :
    ∀ g ∈ l.dropWhile (fun g => decide (f g ≤ d)), d < f g := by
  induction l with
  | nil => simp
  | cons a l ih =>
    rw [List.pairwise_cons] at o
    rw [List.dropWhile_cons]
    split
    · exact ih o.2
    · rename_i n
      have first : d < f a := by simpa using n
      intro g hg
      rcases List.mem_cons.1 hg with rfl | hg
      · exact first
      · exact first.trans_le (o.1 g hg)

/-- A member joins between the members whose deadline is no later and the others (R97). -/
theorem joinBehind_eq (s : State) (h : Handle) (d : Nat) (l : List Handle) : joinBehind s h d l =
    l.takeWhile (fun g => decide (ticksLeft s g ≤ d)) ++ h :: l.dropWhile fun g => decide (ticksLeft s g ≤ d) := by
  have rest : l.drop (l.takeWhile fun g => decide (ticksLeft s g ≤ d)).length
      = l.dropWhile fun g => decide (ticksLeft s g ≤ d) := by
    conv_lhs =>
      enter [2]
      rw [← List.takeWhile_append_dropWhile (p := fun g => decide (ticksLeft s g ≤ d)) (l := l)]
    exact List.drop_left
  rw [← rest, List.append_cons]; rfl

/-- Settles O25: the list without the member is cut at the member's count, and the member stands at the cut. -/
theorem reservationsStayInOrder : Obligations.ReservationsStayInOrder := by
  intro s h due others t sorted
  have inOrder : others.Pairwise fun a b => due s a ≤ due s b := sorted.filter _
  have absent : h ∉ others := fun mem => by simp [others] at mem
  have joined : t.reservations = _ := joinBehind_eq s h (reservationTicks s) others
  have whole := List.takeWhile_append_dropWhile (p := fun g => decide (ticksLeft s g ≤ reservationTicks s)) (l := others)
  have others_only : others.filter (· != h) = others := filter_ne_self absent
  refine ⟨by rw [joinReservations_rec]; rfl, joinReservations_order h inOrder, joinReservations_perm s h, ?_,
    fun a b cut g hg => ?_, fun g gh => joinReservations_other s gh⟩
  · rw [joined, List.filter_append, List.filter_cons_of_neg (by simp), ← List.filter_append, whole, others_only]
  · rw [joined] at cut
    obtain ⟨-, -, rfl⟩ := (List.append_cons_inj_of_notMem
      (fun mem => absent (List.takeWhile_subset _ mem)) (fun mem => absent (List.dropWhile_subset _ mem))).1 cut
    exact lt_of_mem_dropWhile inOrder g hg

/-! ## FREED (O20) -/

theorem capacityFreed_passes {s : State} (role : s.role = .mid ∨ s.role = .tail) :
    capacityFreed s = emitRet s (.freed s.position) := by
  unfold capacityFreed; obtain role | role := role <;> rw [role]

theorem capacityFreed_retries {s : State} (role : s.role = .head ∨ s.role = .sole) : capacityFreed s = startRetry s := by
  unfold capacityFreed; obtain role | role := role <;> rw [role]

/-- A FREED frame goes on up, or is a capacity-freed event of the HEAD's or SOLE's own (R105). -/
theorem actFreed_eq (p : Pos) (s : State) :
    actFreed p s = if s.role = .mid ∨ s.role = .tail then passUp s (.freed p) else capacityFreed s := by
  unfold actFreed capacityFreed
  cases s.role <;> rfl

theorem freed_ready {p : Pos} {s : State} (ready : Ready .ret (.freed p) s) :
    exec (.freed p) s = .next (endEvent s (actFreed p (took .ret s))) :=
  congrArg Host.Outcome.next (takeFrame_ready ready rfl)

/-- Nothing is retried outside OPEN, or with no unit held (R107). -/
theorem startRetry_idle {s : State} (idle : s.voyage ≠ .opened ∨ s.holds = []) : startRetry s = s := by
  unfold startRetry
  obtain shut | empty := idle
  · exact if_pos (bne_iff_ne.2 shut)
  · rw [empty]; exact ite_self s

/-- The bid step of a retry: the oldest entry is off the list, and its frame is stamped (R107). -/
def retryBid (s : State) (e : HoldEntry) (rest : List HoldEntry) : CheckIn × State :=
  bidStep (stampState { s with holds := rest } (retryFrame e)) (stampFrame s (retryFrame e))

theorem startRetry_oldest {s : State} {e : HoldEntry} {rest : List HoldEntry} (held : s.holds = e :: rest)
    (opened : s.voyage = .opened) : startRetry s =
      if s.role = .sole then settleSole (retryBid s e rest).2 (retryBid s e rest).1
      else emitFwd (retryBid s e rest).2 (.checkIn (retryBid s e rest).1) := by
  have on : ¬ (s.voyage != .opened) = true := by rw [opened]; decide
  unfold startRetry
  rw [if_neg on]
  split
  · rename_i empty; rw [held] at empty; cases empty
  · rename_i first others list
    rw [held] at list
    cases list
    split
    · rename_i sole; rw [if_pos sole]; rfl
    · rename_i other; rw [if_neg other]; rfl

/-- Settles O20: by the role, and at a HEAD or SOLE by the voyage state and the hold list. -/
theorem freedCapacityStartsOneRetry : Obligations.FreedCapacityStartsOneRetry := by
  refine ⟨fun p s ready => ?_, fun s => ⟨capacityFreed_passes, fun role idle => ?_, fun e rest held opened =>
    ⟨fun head => ?_, fun sole => ?_⟩⟩⟩
  · have act := actFreed_eq p (took .ret s)
    rw [show (took .ret s).role = s.role from rfl] at act
    rw [freed_ready ready, act]
    split
    · exact congrArg _ (endEvent_same rfl)
    · rfl
  · rw [capacityFreed_retries role, startRetry_idle idle]
  · rw [capacityFreed_retries (.inl head)]
    exact (startRetry_oldest held opened).trans (if_neg (by rw [head]; decide))
  · rw [capacityFreed_retries (.inr sole)]
    exact (startRetry_oldest held opened).trans (if_pos sole)

/-! ## CANCEL (O38) -/

theorem holdsMark_iff {m : Mark} {l : List HoldEntry} : holdsMark m l = true ↔ ∃ e ∈ l, descMark e.desc = m := by
  unfold holdsMark; simp only [List.any_eq_true, beq_iff_eq]

theorem hasHoldList_iff {s : State} : hasHoldList s = true ↔ s.role = .head ∨ s.role = .sole := by
  unfold hasHoldList; rw [Bool.or_eq_true, beq_iff_eq, beq_iff_eq]

theorem cancelHeld_eq (s : State) (m : Mark) : cancelHeld s m =
    if (s.role = .head ∨ s.role = .sole) ∧ ∃ e ∈ s.holds, descMark e.desc = m then
      { s with holds := s.holds.filter (fun e => descMark e.desc != m), origFwd := s.origFwd ++ [.shutOut m .cancelled] }
    else s := by
  unfold cancelHeld
  simp only [Bool.and_eq_true, hasHoldList_iff, holdsMark_iff]
  rfl

/-- A held entry that is withdrawn touches the hold list and forward out alone. -/
theorem cancelHeld_only (s : State) (m : Mark) :
    cancelHeld s m = { s with holds := (cancelHeld s m).holds, origFwd := (cancelHeld s m).origFwd } := by
  unfold cancelHeld; split <;> rfl

theorem findHolder_cancelHeld (s : State) (m n : Mark) : findHolder (cancelHeld s m) n = findHolder s n := by
  rw [cancelHeld_only]; rfl

theorem getRec_cancelHeld (s : State) (m : Mark) (h : Handle) : getRec (cancelHeld s m) h = getRec s h :=
  getRec_congr (by rw [cancelHeld_only]) h

/-- No holder of the mark, or one ABOARD: the held entry alone is withdrawn (R103). -/
theorem actCancel_none {s : State} {m : Mark} (free : findHolder s m = none) : actCancel m s = cancelHeld s m := by
  unfold actCancel; dsimp only; rw [findHolder_cancelHeld, free]

theorem actCancel_aboard {s : State} {m : Mark} {h : Handle} (held : findHolder s m = some h)
    (state : (getRec s h).state = .aboard) : actCancel m s = cancelHeld s m := by
  unfold actCancel; dsimp only; rw [findHolder_cancelHeld, held]; dsimp only; rw [getRec_cancelHeld, state]; rfl

theorem actCancel_offered {s : State} {m : Mark} {h : Handle} (held : findHolder s m = some h)
    (state : (getRec s h).state = .offered) :
    actCancel m s = setRec (cancelHeld s m) h { getRec s h with cancelPending := true } := by
  unfold actCancel; dsimp only; rw [findHolder_cancelHeld, held]; dsimp only; rw [getRec_cancelHeld, state]; rfl

theorem actCancel_reserved {s : State} {m : Mark} {h : Handle} (held : findHolder s m = some h)
    (state : (getRec s h).state = .reserved) : actCancel m s =
      capacityFreed
        (emitFwd (freeRec { cancelHeld s m with reservations := s.reservations.filter (· != h) } h)
          (.lapse (recMark (getRec s h)) (recLane (getRec s h)) (getRec s h).sequence .cancelled)) := by
  have same : (cancelHeld s m).reservations = s.reservations := by rw [cancelHeld_only]
  have withdrawn : actCancel m s = cancelReservation (cancelHeld s m) h := by
    unfold actCancel; dsimp only; rw [findHolder_cancelHeld, held]; dsimp only; rw [getRec_cancelHeld, state]; rfl
  rw [withdrawn]
  unfold cancelReservation dropReservation
  rw [getRec_cancelHeld, same]

theorem cancel_ready {m : Mark} {s : State} (ready : Ready .fwd (.cancel m) s) :
    exec (.cancel m) s = .next (endEvent s (actCancel m (passDown (took .fwd s) (.cancel m)))) :=
  congrArg Host.Outcome.next (takeFrame_ready ready rfl)

/-- Settles O38: the held entry first, then by the state of the mark's holder. -/
theorem cancelWithdrawsTheMark : Obligations.CancelWithdrawsTheMark := by
  intro m s ready on s1
  have held_off : cancelHeld on m = s1 := cancelHeld_eq on m
  have quiet : s1.notices = s.notices := by rw [← held_off, cancelHeld_only]; rfl
  have taken : exec (.cancel m) s = .next (endEvent s (actCancel m on)) := cancel_ready ready
  rw [taken]
  refine ⟨fun free => ?_, fun h held => ⟨fun state => ?_, fun state => ?_, fun state => ?_⟩⟩
  · rw [actCancel_none (s := on) free, held_off, endEvent_same quiet]
  · rw [actCancel_aboard (s := on) held state, held_off, endEvent_same quiet]
  · rw [actCancel_offered (s := on) held state, held_off, endEvent_same (by rw [setRec_notices, quiet])]; rfl
  · rw [actCancel_reserved (s := on) held state, held_off]; rfl

/-! ## TRIAL (O47) -/

theorem placeTrial_eq {s a : State} {u : UnitDesc} {b : Best} {h : Handle} (alloc : allocate s = some (h, a)) :
    placeTrial s u b =
      { st := { listAtTail (setRec a h (newRecord u .trial)) h b.lane with trials := h :: s.trials }, code := .ok
        body := .trialPlaced h b.lane b.place.offset b.score (s.trials.length + 1), after := .nothing } := by
  have trials : (listAtTail (setRec a h (newRecord u .trial)) h b.lane).trials = s.trials := by
    rw [listAtTail_only, setRec_trials, allocate_only alloc]
  unfold placeTrial
  rw [alloc]
  dsimp only
  rw [trials]; rfl

/-- A refusal that sets RECORDS_LOW. -/
theorem serve_refuses_low {q : ReqHead} {body : ReqBody} {act : State → Answer} {s : State} (a : Addressed q body s)
    {code : ReplyCode} (refused : act (took .fwd s) = refuse (raiseNotice (took .fwd s) .recordsLow) code) :
    (.next (serve q body act s) : Host.Outcome State Fault Refusal) = .next
      (endEvent s { replied q code .empty s with notices := { s.notices with recordsLow := true } }) := by
  have event := serve_event (t := raiseNotice (took .fwd s) .recordsLow) a refused
  rw [event]; rfl

theorem markTaken_iff {s : State} {m : Mark} :
    markTaken s m = true ↔ (findTrial s m).isSome = true ∨ (findHolder s m).isSome = true := Bool.or_eq_true_iff

/-- Settles O47: the tests in turn, then the best lane and the allocation. -/
theorem trialAnswers : Obligations.TrialAnswers := by
  intro q d s a
  change Host.Outcome.next (serve q _ (actTrial d) s) = _
  have act : actTrial d (took .fwd s) =
      if s.voyage ≠ .opened then refuse (took .fwd s) .wrongState
      else
        match descExactUnit d with
        | none => refuse (took .fwd s) .badField
        | some u =>
          if 5 ≤ s.trials.length then refuse (took .fwd s) .full
          else if markTaken s u.mark then refuse (took .fwd s) .duplicate
          else if !generalAvailable s then refuse (raiseNotice (took .fwd s) .recordsLow) .full
          else
            match bestLane s u with
            | none => answer (took .fwd s) .trialNone
            | some b => placeTrial (took .fwd s) u b := rfl
  simp only [markTaken_iff, generalAvailable_false_iff] at act
  by_cases shut : s.voyage ≠ .opened
  · rw [if_pos shut] at act ⊢; exact serve_refuses a act
  rw [if_neg shut] at act ⊢
  cases unit : descExactUnit d with
  | none => rw [unit] at act; exact serve_refuses a act
  | some u =>
    rw [unit] at act
    dsimp only at act ⊢
    by_cases full : 5 ≤ s.trials.length
    · rw [if_pos full] at act ⊢; exact serve_refuses a act
    rw [if_neg full] at act ⊢
    by_cases known : (findTrial s u.mark).isSome = true ∨ (findHolder s u.mark).isSome = true
    · rw [if_pos known] at act ⊢; exact serve_refuses a act
    rw [if_neg known] at act ⊢
    by_cases low : 480 ≤ liveCount s
    · rw [if_pos low] at act ⊢; exact serve_refuses_low a act
    rw [if_neg low] at act ⊢
    cases best : bestLane s u with
    | none => rw [best] at act; exact serve_answers a act
    | some b =>
      rw [best] at act
      dsimp only at act
      cases alloc : allocate (took .fwd s) with
      | none => exact serve_refuses_low a (act.trans (by unfold placeTrial; rw [alloc]))
      | some x =>
        obtain ⟨h, s1⟩ := x
        have only : listAtTail (setRec s1 h (newRecord u .trial)) h b.lane = _ := listAtTail_only ..
        have reply (body : ReplyBody) :
            Frame.reply q.tag (listAtTail (setRec s1 h (newRecord u .trial)) h b.lane).position .ok body
              = .reply q.tag s.position .ok body := by
          rw [only, allocate_only alloc]; rfl
        have origRet : (listAtTail (setRec s1 h (newRecord u .trial)) h b.lane).origRet = s.origRet := by
          rw [only, allocate_only alloc]; rfl
        rw [serve_event a (act.trans (placeTrial_eq alloc))]
        dsimp only
        rw [origRet, reply]; rfl

/-! ## READ HOLD LIST (O49) -/

/-- Settles O49: the role, the start place, and the entries as they stand. -/
theorem readHoldListAnswers : Obligations.ReadHoldListAnswers := by
  intro q n s a
  change Host.Outcome.next (serve q _ (actReadHoldList n) s) = _
  have act : actReadHoldList n (took .fwd s) =
      if s.role = .mid ∨ s.role = .tail then refuse (took .fwd s) .wrongRole
      else if n < 1 ∨ 32 < n then refuse (took .fwd s) .badField
      else answer (took .fwd s) (.holdList s.holds.length (holdViews n s.holds)) := rfl
  split
  · rename_i role; exact serve_refuses a (act.trans (if_pos role))
  rename_i role
  rw [if_neg role] at act
  split
  · rename_i start; exact serve_refuses a (act.trans (if_pos start))
  · rename_i start; exact serve_answers a (act.trans (if_neg start))

end Sys2Proof.Machine

namespace Sys2Proof.Machine

/-! # Tallies (O27, O30) -/

/-! ## What the action of a tally leaves as it stands

What follows the action (TALLY_CLOSED, the detection at a TAIL or SOLE, the frame passed on) reads the voyage state, the role
and forward out of the state that the action leaves; no action writes these, so that they may be read before it. -/

/-- What the end of a tally reads of the state `s` before its action stands in `t`. -/
structure TallyFrame (s t : State) : Prop where
  voyage : t.voyage = s.voyage
  role : t.role = s.role
  passFwd : t.passFwd = s.passFwd

theorem TallyFrame.refl (s : State) : TallyFrame s s := ⟨rfl, rfl, rfl⟩

namespace TallyFrame
variable {s t : State} (f : TallyFrame s t)
include f

theorem without_reservation (h : Handle) : TallyFrame s { t with reservations := t.reservations.filter (· != h) } :=
  { f with }
theorem without_offer (h : Handle) : TallyFrame s { t with offers := t.offers.filter (· != h) } := { f with }

theorem setRec (h : Handle) (r : UnitRec) : TallyFrame s (setRec t h r) := { f with }
theorem setSuspect (l : Lane) (b : Bool) : TallyFrame s (setSuspect t l b) := by rw [setSuspect_only]; exact { f with }
theorem unlist (h : Handle) : TallyFrame s (unlist t h) := by rw [unlist_only]; exact { f with }
theorem makeLeft (h : Handle) : TallyFrame s (makeLeft t h) := by rw [makeLeft_only]; exact { f with }
theorem promote (h : Handle) (l : Lane) : TallyFrame s (promote t h l) := by rw [promote_only]; exact { f with }
theorem listBehindAboard (h : Handle) (l : Lane) : TallyFrame s (listBehindAboard t h l) := by
  rw [listBehindAboard_only]; exact { f with }
theorem dropReservation (h : Handle) : TallyFrame s (dropReservation t h) := by
  rw [dropReservation_only]; exact { f with }
theorem allocate {u : State} {h : Handle} (e : allocate t = some (h, u)) : TallyFrame s u := by
  rw [allocate_only e]; exact { f with }

theorem raiseNotice (n : Notice) : TallyFrame s (raiseNotice t n) := { f with }
theorem post (k : ExcKind) (m : Option Mark) (l : Option Lane) (m2 : Option Mark) (d : Option ExcDetail) :
    TallyFrame s (post t k m l m2 d) := by rw [post_only]; exact { f with }
theorem postLimit (m : Mark) (l : Lane) (failed : List Check) : TallyFrame s (postLimit t m l failed) := by
  rw [postLimit_only]; exact { f with }
theorem postExitOrder (before : State) (h : Handle) (m : Mark) : TallyFrame s (postExitOrder before t h m) := by
  rw [postExitOrder_only]; exact { f with }
theorem judge (m : Mark) (l : Lane) (rank : Nat) (ahead : Option UnitRec) : TallyFrame s (judge t m l rank ahead) := by
  rw [judge_only]; exact { f with }

theorem postClosed (m : Mark) (l : Lane) (changed : Bool) : TallyFrame s (postClosed t m l changed) := by
  unfold Machine.postClosed; split
  · exact f.post ..
  · exact f

theorem unrecorded (m : Mark) (l : Lane) : TallyFrame s (unrecorded t m l).st :=
  ((f.post ..).setSuspect ..).raiseNotice ..

theorem refusedForced : TallyFrame s (refusedForced t) := by
  unfold Machine.refusedForced; split
  · exact f
  · exact f.raiseNotice _

end TallyFrame

theorem tallyCommit_frame (s : State) (m : Mark) (l : Lane) (h : Handle) : TallyFrame s (tallyCommit s m l h).st :=
  (((TallyFrame.refl s).without_reservation h).promote h l).judge ..

theorem tallyMove_frame (s : State) (m : Mark) (l : Lane) (h : Handle) : TallyFrame s (tallyMove s m l h).st := by
  unfold tallyMove; split
  · have listed := (((TallyFrame.refl s).without_reservation h).unlist h).listBehindAboard h l
    exact ((listed.post ..).postLimit ..).judge ..
  · exact (TallyFrame.refl s).unrecorded m l

theorem tallyConvert_frame (s : State) (m : Mark) (l : Lane) (h : Handle) : TallyFrame s (tallyConvert s m l h).st := by
  unfold tallyConvert; split
  · have left := ((TallyFrame.refl s).without_offer h).unlist h
    exact (((left.setRec h _).listBehindAboard h l).post ..).judge ..
  · exact (TallyFrame.refl s).unrecorded m l

theorem tallyRestow_frame (s : State) (m : Mark) (l : Lane) (h : Handle) : TallyFrame s (tallyRestow s m l h).st := by
  unfold tallyRestow; split
  · split
    · exact (TallyFrame.refl s).unrecorded m l
    · rename_i n a alloc
      have left (r : UnitRec) := (((TallyFrame.refl s).allocate alloc).setRec n r).makeLeft h
      exact (((((left _).listBehindAboard n l).post ..).postExitOrder ..).postLimit ..).judge ..
  · exact (TallyFrame.refl s).refusedForced.unrecorded m l

theorem tallyForced_frame (s : State) (m : Mark) (l : Lane) (d : Option Desc) : TallyFrame s (tallyForced s m l d).st := by
  unfold tallyForced; split
  · split
    · exact (TallyFrame.refl s).unrecorded m l
    · rename_i n a alloc
      have listed (r : UnitRec) := (((TallyFrame.refl s).allocate alloc).setRec n r).listBehindAboard n l
      exact (((listed _).post ..).postLimit ..).judge ..
  · exact (TallyFrame.refl s).refusedForced.unrecorded m l

/-! ## The action of a TALLY-ON, by the state of the holder (Table 6.2) -/

theorem tallyOnAction_none {s : State} {m : Mark} (free : findHolder s m = none) (l : Lane) (d : Option Desc) :
    tallyOnAction s m l d = if inRange s l then tallyForced s m l d else noTally s := by
  unfold tallyOnAction; rw [free]

section
variable {s : State} {m : Mark} {h : Handle} (held : findHolder s m = some h) (l : Lane) (d : Option Desc)
include held

theorem tallyOnAction_reserved (state : (getRec s h).state = .reserved) : tallyOnAction s m l d =
    if inRange s l = false then tallyElsewhere s h
    else if (getRec s h).lane = some l then tallyCommit s m l h else tallyMove s m l h := by
  unfold tallyOnAction; rw [held]; dsimp only; rw [state]; cases inRange s l <;> rfl

theorem tallyOnAction_offered (state : (getRec s h).state = .offered) :
    tallyOnAction s m l d = if inRange s l then tallyConvert s m l h else noTally s := by
  unfold tallyOnAction; rw [held]; dsimp only; rw [state]; rfl

theorem tallyOnAction_aboard (state : (getRec s h).state = .aboard) : tallyOnAction s m l d =
    if inRange s l = false then tallyRestowElsewhere s m l h
    else if (getRec s h).lane = some l then tallyRepeat s else tallyRestow s m l h := by
  unfold tallyOnAction; rw [held]; dsimp only; rw [state]; cases inRange s l <;> rfl

theorem tallyOnAction_notHolder (state : holderState (getRec s h).state = none) : tallyOnAction s m l d = noTally s := by
  unfold tallyOnAction; rw [held]; dsimp only; rw [state]

end

/-- Every action of Table 6.2 leaves the voyage state, the role and the ports as they stand. -/
theorem tallyOnAction_frame (s : State) (m : Mark) (l : Lane) (d : Option Desc) : TallyFrame s (tallyOnAction s m l d).st := by
  have same := TallyFrame.refl s
  cases held : findHolder s m with
  | none =>
    rw [tallyOnAction_none held]
    split
    · exact tallyForced_frame ..
    · exact same
  | some h =>
    cases state : (getRec s h).state with
    | reserved =>
      rw [tallyOnAction_reserved held l d state]
      split
      · exact same.dropReservation h
      split
      · exact tallyCommit_frame ..
      · exact tallyMove_frame ..
    | offered =>
      rw [tallyOnAction_offered held l d state]
      split
      · exact tallyConvert_frame ..
      · exact same
    | aboard =>
      rw [tallyOnAction_aboard held l d state]
      split
      · exact ((same.makeLeft h).post ..).postExitOrder ..
      split
      · exact same
      · exact tallyRestow_frame ..
    | free | trial | left => rw [tallyOnAction_notHolder held l d (by rw [state]; rfl)]; exact same

/-! ## What every tally ends with -/

theorem postClosed_eq (s : State) (m : Mark) (l : Lane) (changed : Bool) : postClosed s m l changed =
    if s.voyage = .closed ∧ changed = true then post s .tallyClosed (some m) (some l) none none else s := by
  unfold postClosed; simp only [Bool.and_eq_true, beq_iff_eq]

theorem detect_eq (s : State) (k : ExcKind) (m : Mark) (l : Lane) (flag : Bool) : detect s k m l flag =
    if (s.role = .tail ∨ s.role = .sole) ∧ flag = false then post s k (some m) (some l) none none else s := by
  unfold detect; simp only [Bool.and_eq_true, Bool.or_eq_true, beq_iff_eq, Bool.not_eq_true']

/-- The exceptions in their order, the frame passed on and the capacity freed, each decided on the state before the tally
(R118, R134, R135). -/
theorem tallyEnd_eq {s : State} {r : TallyResult} (same : TallyFrame s r.st) (k : ExcKind) (m : Mark) (l : Lane) (flag : Bool)
    (f : Frame) : tallyFreed (passDown (detect (postClosed r.st m l r.changed) k m l flag) f) r.freed =
      (let s1 := if s.voyage = .closed ∧ r.changed = true then post r.st .tallyClosed (some m) (some l) none none else r.st
      let s2 := if (s.role = .tail ∨ s.role = .sole) ∧ flag = false then post s1 k (some m) (some l) none none else s1
      let s3 := { s2 with passFwd := s.passFwd ++ [f] }
      if r.freed = true then capacityFreed s3 else s3) := by
  have closed := same.postClosed m l r.changed
  have forward : (detect (postClosed r.st m l r.changed) k m l flag).passFwd = s.passFwd := by
    unfold detect; split
    · exact (closed.post ..).passFwd
    · exact closed.passFwd
  unfold tallyFreed passDown
  rw [forward, detect_eq, closed.role, postClosed_eq, same.voyage]

/-! ## TALLY_ON (O27) -/

theorem tallyOn_ready {m : Mark} {l : Lane} {d : Option Desc} {placed : Bool} {s : State}
    (ready : Ready .fwd (.tallyOn m l d placed) s) :
    exec (.tallyOn m l d placed) s = .next (endEvent s (actTallyOn m l d placed (took .fwd s))) :=
  congrArg Host.Outcome.next (takeFrame_ready ready rfl)

theorem tallyOff_ready {m : Mark} {l : Lane} {removed : Bool} {s : State} (ready : Ready .fwd (.tallyOff m l removed) s) :
    exec (.tallyOff m l removed) s = .next (endEvent s (actTallyOff m l removed (took .fwd s))) :=
  congrArg Host.Outcome.next (takeFrame_ready ready rfl)

theorem actTallyOn_setup {s : State} (setup : s.voyage = .setup) (m : Mark) (l : Lane) (d : Option Desc) (placed : Bool) :
    actTallyOn m l d placed s = passDown s (.tallyOn m l d placed) := if_pos setup

theorem actTallyOff_setup {s : State} (setup : s.voyage = .setup) (m : Mark) (l : Lane) (removed : Bool) :
    actTallyOff m l removed s = passDown s (.tallyOff m l removed) := if_pos setup

theorem actTallyOn_sailed {s : State} (sailed : s.voyage ≠ .setup) (m : Mark) (l : Lane) (d : Option Desc) (placed : Bool) :
    actTallyOn m l d placed s =
      (let r := tallyOnAction s m l d
      let s1 := if s.voyage = .closed ∧ r.changed = true then post r.st .tallyClosed (some m) (some l) none none else r.st
      let s2 := if (s.role = .tail ∨ s.role = .sole) ∧ placed = false ∧ r.marks = false then
          post s1 .unplaced (some m) (some l) none none
        else s1
      let s3 := { s2 with passFwd := s.passFwd ++ [.tallyOn m l d (placed || r.marks)] }
      if r.freed = true then capacityFreed s3 else s3) := by
  unfold actTallyOn
  rw [if_neg sailed]
  dsimp only
  rw [tallyEnd_eq (tallyOnAction_frame s m l d)]
  simp only [Bool.or_eq_false_iff]

/-- Settles O27: SETUP and the sea apart, the action of Table 6.2 by the state of the holder, the two actions outside the
range as they stand. -/
theorem tallyOnInOrder : Obligations.TallyOnInOrder := by
  refine ⟨fun m l d flag s setup => ⟨fun ready => ?_, fun ready => ?_⟩, fun m l d placed s ready sailed => ?_,
    fun s m l d => ⟨fun free => tallyOnAction_none free l d, fun h held =>
      ⟨tallyOnAction_reserved held l d, tallyOnAction_offered held l d, tallyOnAction_aboard held l d⟩⟩,
    fun s m l h => ⟨rfl, rfl⟩⟩
  · rw [tallyOn_ready ready, actTallyOn_setup (s := took .fwd s) setup]; exact congrArg _ (endEvent_same rfl)
  · rw [tallyOff_ready ready, actTallyOff_setup (s := took .fwd s) setup]; exact congrArg _ (endEvent_same rfl)
  · rw [tallyOn_ready ready, actTallyOn_sailed (s := took .fwd s) sailed]; rfl

/-! ## TALLY_OFF (O30) -/

theorem tallyOffAction_absent {s : State} {m : Mark}
    (absent : ∀ h, findHolder s m = some h → (getRec s h).state ≠ .aboard) :
    tallyOffAction s m = noTally s := by
  unfold tallyOffAction
  split
  · rfl
  · rename_i h held; exact if_neg (absent h held)

theorem tallyOffAction_aboard {s : State} {m : Mark} {h : Handle} (held : findHolder s m = some h)
    (aboard : (getRec s h).state = .aboard) : tallyOffAction s m =
      { st := postExitOrder s (makeLeft s h) h m, marks := true, changed := true, freed := true } := by
  unfold tallyOffAction; rw [held]; exact if_pos aboard

/-- A mark that is not ABOARD here: the frame goes on as it came (R132, R135). -/
theorem actTallyOff_absent {s : State} (sailed : s.voyage ≠ .setup) {m : Mark}
    (absent : ∀ h, findHolder s m = some h → (getRec s h).state ≠ .aboard) (l : Lane) (removed : Bool) :
    actTallyOff m l removed s =
      (let s1 := if (s.role = .tail ∨ s.role = .sole) ∧ removed = false then
          post s .unknownExit (some m) (some l) none none
        else s
      { s1 with passFwd := s.passFwd ++ [.tallyOff m l removed] }) := by
  unfold actTallyOff
  rw [if_neg sailed, tallyOffAction_absent absent]
  dsimp only
  rw [tallyEnd_eq (r := noTally s) (TallyFrame.refl s)]
  simp [noTally]

/-- The ABOARD record of the mark leaves: REMOVED is set, so that nothing is detected (R132 to R135). -/
theorem actTallyOff_aboard {s : State} (sailed : s.voyage ≠ .setup) {m : Mark} {h : Handle} (held : findHolder s m = some h)
    (aboard : (getRec s h).state = .aboard) (l : Lane) (removed : Bool) :
    actTallyOff m l removed s =
      (let s2 := postExitOrder s (makeLeft s h) h m
      let s3 := if s.voyage = .closed then post s2 .tallyClosed (some m) (some l) none none else s2
      capacityFreed { s3 with passFwd := s.passFwd ++ [.tallyOff m l true] }) := by
  have frame : TallyFrame s (postExitOrder s (makeLeft s h) h m) := ((TallyFrame.refl s).makeLeft h).postExitOrder ..
  unfold actTallyOff
  rw [if_neg sailed, tallyOffAction_aboard held aboard]
  dsimp only
  rw [tallyEnd_eq (r := { st := postExitOrder s (makeLeft s h) h m, marks := true, changed := true, freed := true }) frame]
  simp

/-- Of the members of a list that meet `p`, one stands behind the first `h` exactly where the list has one behind an `h`. -/
theorem behind_iff {p : Handle → Bool} {h : Handle} (ph : p h = true) (o : List Handle) :
    ((o.filter p).dropWhile (· != h)).tail ≠ [] ↔ ∃ a b g, o = a ++ h :: b ∧ g ∈ b ∧ p g = true := by
  induction o with
  | nil => simp
  | cons x o ih =>
    by_cases xh : x = h
    · subst xh
      have first : ((x :: o).filter p).dropWhile (· != x) = x :: o.filter p := by
        rw [List.filter_cons_of_pos ph, List.dropWhile_cons_of_neg (by simp)]
      rw [first, List.tail_cons, Ne, List.filter_eq_nil_iff]
      simp only [not_forall, not_not, exists_prop]
      constructor
      · rintro ⟨g, listed, meets⟩; exact ⟨[], o, g, rfl, listed, meets⟩
      · rintro ⟨a, b, g, cut, listed, meets⟩
        rcases List.cons_eq_append_iff.1 cut with ⟨rfl, same⟩ | ⟨a', rfl, rfl⟩
        · cases same; exact ⟨g, listed, meets⟩
        · exact ⟨g, by simp [listed], meets⟩
    · have skipped : ((x :: o).filter p).dropWhile (· != h) = (o.filter p).dropWhile (· != h) := by
        rw [List.filter_cons]
        split
        · exact List.dropWhile_cons_of_pos (by simpa using xh)
        · rfl
      rw [skipped, ih]
      constructor
      · rintro ⟨a, b, g, rfl, found⟩; exact ⟨x :: a, b, g, rfl, found⟩
      · rintro ⟨a, b, g, cut, found⟩
        rcases List.cons_eq_append_iff.1 cut with ⟨rfl, same⟩ | ⟨a', rfl, rfl⟩
        · cases same; exact absurd rfl xh
        · exact ⟨a', b, g, rfl, found⟩

theorem aboardAft_iff {s : State} {h : Handle} (aboard : (getRec s h).state = .aboard) : aboardAft s h = true ↔
    ∃ l a b g, (getRec s h).lane = some l ∧ occupantsOf s l = a ++ h :: b ∧ g ∈ b ∧ (getRec s g).state = .aboard := by
  have isAboard_iff (g : Handle) : isAboard s g = true ↔ (getRec s g).state = .aboard := beq_iff_eq
  unfold aboardAft
  cases lane : (getRec s h).lane with
  | none => simp
  | some l =>
    simp only [Option.some.injEq, exists_eq_left', ← isAboard_iff, exists_and_left]
    exact bne_iff_ne.trans ((behind_iff ((isAboard_iff h).2 aboard) _).trans (by simp))

/-- Settles O30: by whether the mark is ABOARD here; the exit order by the lane's list. -/
theorem tallyOffRecordsTheExit : Obligations.TallyOffRecordsTheExit := by
  refine ⟨fun m l removed s ready sailed => ⟨fun absent => ?_, fun h held aboard => ?_⟩, fun s h aboard => aboardAft_iff aboard⟩
  · rw [tallyOff_ready ready, actTallyOff_absent (s := took .fwd s) sailed absent]; rfl
  · rw [tallyOff_ready ready, actTallyOff_aboard (s := took .fwd s) sailed held aboard]; rfl

end Sys2Proof.Machine

namespace Sys2Proof.Machine

/-! # Hoistable decks and the report timer (O7, O31, O32) -/

/-! ## DEPLOY and STOW (O32) -/

/-- What DEPLOY and STOW have in common (section 7.2): the tests in turn, and the movement where none of them refuses. The hoist
states that do not allow the request, and the occupants in the way with what their reply says of their height, are each
request's own. -/
def tryMove (id : Nat) (wrong : HoistState → Prop) [DecidablePred wrong] (inWay : SectionEntry → List (Lane × Handle))
    (height : Handle → Option Nat) (st : HoistState) (move : HoistMove) (s : State) : Answer :=
  if 5 < id then refuse s .badField
  else
    match Table.find s.sections id with
    | none => refuse s .noSuch
    | some e =>
      if wrong e.state then refuse s .wrongState
      else
        match inWay e with
        | (l, h) :: _ => blockedBy s l h (height h)
        | [] => startMove s id e st move

theorem actDeploy_eq_tryMove (id : Nat) (s : State) : actDeploy id s =
    tryMove id (· ≠ .stowed) (overHeight s) (fun h => some (recHeight (getRec s h))) .deploying .lower s := rfl

theorem actStow_eq_tryMove (id : Nat) (s : State) : actStow id s =
    tryMove id (fun st => st ≠ .deployed ∧ st ≠ .fault) (hoistOccupants s) (fun _ => none) .stowing .raise s := rfl

/-- A request in whose way an occupant stands: the REPLY names it, and nothing else changes (R141). -/
theorem serve_blocked {q : ReqHead} {body : ReqBody} {act : State → Answer} {s : State} (a : Addressed q body s)
    {l : Lane} {h : Handle} {height : Option Nat} (blocked : act (took .fwd s) = blockedBy (took .fwd s) l h height) :
    (.next (serve q body act s) : Host.Outcome State Fault Refusal)
      = .next (replied q .blocked (.blocked l h (recMark (getRec s h)) height) s) :=
  congrArg _ (serve_replies a blocked)

/-- A request that starts a movement (R141, R142). -/
theorem serve_moves {q : ReqHead} {body : ReqBody} {act : State → Answer} {s : State} (a : Addressed q body s)
    {id : Nat} {e : SectionEntry} {st : HoistState} {move : HoistMove}
    (moves : act (took .fwd s) = startMove (took .fwd s) id e st move) :
    (.next (serve q body act s) : Host.Outcome State Fault Refusal) = .next
      { replied q .ok (.hoist id st) s with
        sections := Table.put id { e with state := st, timer := some (10 * e.travel) } s.sections
        origFwd := s.origFwd ++ [.hoistPermit s.position id move e.travel] } :=
  serve_takes a moves rfl

/-- A served request for a movement: each refusal with its reply, or the movement. -/
theorem serve_tryMove {q : ReqHead} {body : ReqBody} {act : State → Answer} {s : State} (a : Addressed q body s) {id : Nat}
    {wrong : HoistState → Prop} [DecidablePred wrong] {inWay : SectionEntry → List (Lane × Handle)}
    {height : Handle → Option Nat} {st : HoistState} {move : HoistMove}
    (tries : act (took .fwd s) = tryMove id wrong inWay height st move (took .fwd s)) :
    (.next (serve q body act s) : Host.Outcome State Fault Refusal) = .next
      (if 5 < id then replied q .badField .empty s
      else
        match Table.find s.sections id with
        | none => replied q .noSuch .empty s
        | some e =>
          if wrong e.state then replied q .wrongState .empty s
          else
            match inWay e with
            | (l, h) :: _ => replied q .blocked (.blocked l h (recMark (getRec s h)) (height h)) s
            | [] =>
              { replied q .ok (.hoist id st) s with
                sections := Table.put id { e with state := st, timer := some (10 * e.travel) } s.sections
                origFwd := s.origFwd ++ [.hoistPermit s.position id move e.travel] }) := by
  unfold tryMove at tries
  rw [show (took .fwd s).sections = s.sections from rfl] at tries
  by_cases above : 5 < id
  · rw [if_pos above] at tries ⊢; exact serve_refuses a tries
  rw [if_neg above] at tries ⊢
  cases defined : Table.find s.sections id with
  | none => rw [defined] at tries; exact serve_refuses a tries
  | some e =>
    rw [defined] at tries
    dsimp only at tries ⊢
    by_cases refused : wrong e.state
    · rw [if_pos refused] at tries ⊢; exact serve_refuses a tries
    rw [if_neg refused] at tries ⊢
    cases occupied : inWay e with
    | cons x xs => rw [occupied] at tries; exact serve_blocked a tries
    | nil => rw [occupied] at tries; exact serve_moves a tries

/-- Settles O32: both requests make the tests of section 7.2, on the state they find. -/
theorem deployAndStowAnswer : Obligations.DeployAndStowAnswer :=
  ⟨fun _ id s a => (serve_tryMove a (actDeploy_eq_tryMove id (took .fwd s))).trans rfl,
    fun _ id s a => (serve_tryMove a (actStow_eq_tryMove id (took .fwd s))).trans rfl⟩

/-! ## HOIST STATUS (O31) -/

theorem hoistStatusDown_ready {p : Pos} {id : Nat} {s : State} (ready : Ready .fwd (.hoistStatus p id true) s) :
    exec (.hoistStatusDown p id) s = .next (endEvent s (actHoistStatus p id true (took .fwd s))) :=
  congrArg Host.Outcome.next (takeFrame_ready ready rfl)

theorem hoistStatusUp_ready {p : Pos} {id : Nat} {s : State} (ready : Ready .fwd (.hoistStatus p id false) s) :
    exec (.hoistStatusUp p id) s = .next (endEvent s (actHoistStatus p id false (took .fwd s))) :=
  congrArg Host.Outcome.next (takeFrame_ready ready rfl)

/-- At another position, or with no such section, a status frame is forwarded and nothing else (R143). -/
theorem actHoistStatus_elsewhere {p : Pos} {id : Nat} {s : State}
    (other : p ≠ s.position ∨ Table.find s.sections id = none) (down : Bool) :
    actHoistStatus p id down s = passDown s (.hoistStatus p id down) := by
  unfold actHoistStatus
  obtain away | absent := other
  · rw [if_neg away]
  · rw [absent, ite_self]

/-- At the target position a status frame acts on the section it names, and is forwarded (R143). -/
theorem actHoistStatus_target {p : Pos} {id : Nat} {s : State} {e : SectionEntry} (here : p = s.position)
    (defined : Table.find s.sections id = some e) (down : Bool) :
    actHoistStatus p id down s
      = passDown (if down then statusDown s id e else statusUp s id e) (.hoistStatus p id down) := by
  unfold actHoistStatus; rw [if_pos here, defined]

section
variable {s : State} {id : Nat} {e : SectionEntry}

theorem statusDown_deployed (state : e.state = .deployed) : statusDown s id e = s := by
  unfold statusDown; rw [state]

theorem statusDown_deploying (state : e.state = .deploying) :
    statusDown s id e = capacityFreed (setSection s id { e with state := .deployed, timer := none }) := by
  unfold statusDown; rw [state]

theorem statusDown_fault (state : e.state = .fault) :
    statusDown s id e = postHoist (setSection s id { e with state := .deployed, timer := none }) .hoistLate id := by
  unfold statusDown; rw [state]

theorem statusDown_unpermitted (state : e.state = .stowed ∨ e.state = .stowing) :
    statusDown s id e = downUnpermitted s id e := by
  unfold statusDown; obtain state | state := state <;> rw [state]

theorem statusUp_stowed (state : e.state = .stowed) : statusUp s id e = s := by
  unfold statusUp; rw [state]

theorem statusUp_stowing (state : e.state = .stowing) :
    statusUp s id e = setSection s id { e with state := .stowed, timer := none } := by
  unfold statusUp; rw [state]

theorem statusUp_fault (state : e.state = .fault) :
    statusUp s id e = postHoist (setSection s id { e with state := .stowed, timer := none }) .hoistLate id := by
  unfold statusUp; rw [state]

theorem statusUp_deploying (state : e.state = .deploying) :
    statusUp s id e = postHoist (setSection s id { e with state := .stowed, timer := none }) .hoistUnpermitted id := by
  unfold statusUp; rw [state]

theorem statusUp_deployed (state : e.state = .deployed) :
    statusUp s id e =
      (let up := setSection s id { e with state := .stowed, timer := none }
      postHoist (withdrawAll (offersIn up e) up) .hoistUnpermitted id) := by
  unfold statusUp; rw [state]

end

theorem offersIn_eq (s : State) (e : SectionEntry) : offersIn s e = s.offers.filter fun h =>
    (getRec s h).state == .offered && (getRec s h).lane.any fun l => e.hoist.contains l := by
  refine List.filter_congr fun h _ => ?_
  cases (getRec s h).lane <;> rfl

theorem withdrawAll_eq_foldl (hs : List Handle) : ∀ s : State, withdrawAll hs s =
    hs.foldl (fun t h => freeRec { t with offers := t.offers.filter (· != h) } h) s := by
  induction hs with
  | nil => exact fun _ => rfl
  | cons h hs ih => exact fun s => ih (withdrawOffer s h)

/-- The LIMIT exceptions read the records alone, which no exception writes; so the marks are those of before (R144). -/
theorem postHeights_eq_foldl {s : State} (xs : List (Lane × Handle)) : ∀ {t : State}, t.records = s.records →
    postHeights xs t = xs.foldl
      (fun r x => post r .limit (some (recMark (getRec s x.2))) (some x.1) none (some (.checks [.height]))) t := by
  induction xs with
  | nil => exact fun _ => rfl
  | cons x xs ih =>
    intro t same
    rw [List.foldl_cons, ← getRec_congr same]
    exact ih (by rw [post_only]; exact same)

/-- Settles O31: elsewhere the frame is forwarded alone; at the target, by the state of the section. -/
theorem hoistStatusActs : Obligations.HoistStatusActs := by
  refine ⟨?_, fun s e => ⟨rfl, fun t same => postHeights_eq_foldl _ same⟩, ?_⟩
  · intro p id s ready on
    rw [hoistStatusDown_ready ready]
    refine ⟨⟨_, rfl⟩, fun other => ?_, fun e here defined => ?_⟩
    · rw [actHoistStatus_elsewhere (s := took .fwd s) other]; exact congrArg _ (endEvent_same rfl)
    rw [actHoistStatus_target (s := took .fwd s) here defined, if_pos rfl]
    refine ⟨fun state => ?_, fun state => ?_, fun state => ?_, fun state => ?_⟩
    · rw [statusDown_deployed state]; exact congrArg _ (endEvent_same rfl)
    · rw [statusDown_deploying state]; rfl
    · rw [statusDown_fault state]; rfl
    · rw [statusDown_unpermitted state]; rfl
  · intro p id s ready on
    rw [hoistStatusUp_ready ready]
    refine ⟨⟨_, rfl⟩, fun other => ?_, fun e here defined => ?_⟩
    · rw [actHoistStatus_elsewhere (s := took .fwd s) other]; exact congrArg _ (endEvent_same rfl)
    rw [actHoistStatus_target (s := took .fwd s) here defined, if_neg Bool.false_ne_true]
    refine ⟨fun state => ?_, fun state => ?_, fun state => ?_, fun state => ?_, fun state => ?_⟩
    · rw [statusUp_stowed state]; exact congrArg _ (endEvent_same rfl)
    · rw [statusUp_stowing state]; exact congrArg _ (endEvent_same rfl)
    · rw [statusUp_fault state]; rfl
    · rw [statusUp_deploying state]; rfl
    · rw [statusUp_deployed state]
      dsimp only
      rw [withdrawAll_eq_foldl, offersIn_eq]; rfl

/-! ## Timers (O7) -/

theorem travelExpired_iff {e : SectionEntry} :
    travelExpired e = true ↔ (e.state = .deploying ∨ e.state = .stowing) ∧ e.timer = some 0 := by
  unfold travelExpired
  rw [Bool.and_eq_true, Bool.or_eq_true, beq_iff_eq, beq_iff_eq, beq_iff_eq]

theorem travelTimerExpiry_undefined {id : Nat} {s : State} (absent : Table.find s.sections id = none) :
    exec (.travelTimerExpiry id) s = .next s := by
  change execTravelTimerExpiry id s = _
  unfold execTravelTimerExpiry; rw [absent]

theorem travelTimerExpiry_counting {id : Nat} {s : State} {e : SectionEntry} (out : s.inReset = false)
    (defined : Table.find s.sections id = some e) :
    exec (.travelTimerExpiry id) s = .next (if travelExpired e = true then endEvent s (expireTravel s id e) else s) := by
  change execTravelTimerExpiry id s = _
  unfold execTravelTimerExpiry; rw [defined, out]; rfl

theorem reportTimerExpiry_counting {s : State} (out : s.inReset = false) :
    exec .reportTimerExpiry s = .next
      (if s.role = .head ∧ s.reportState = .awaiting ∧ s.reportTimer = some 0 then
        endReport (emitRet s (.reportAborted (serialInProgress s)))
      else s) := by
  change execReportTimerExpiry s = _
  unfold execReportTimerExpiry
  simp only [out, Bool.not_false, Bool.true_and, Bool.and_eq_true, beq_iff_eq, and_assoc]

/-- Settles O7: out of reset, an expiry command asks whether its own timer has run out. -/
theorem travelAndReportTimersExpire : Obligations.TravelAndReportTimersExpire := by
  refine ⟨fun id s out => ?_, fun s out => reportTimerExpiry_counting out, fun s => ⟨fun n c held => ?_, fun idle => ?_⟩⟩
  · cases defined : Table.find s.sections id with
    | none => exact travelTimerExpiry_undefined defined
    | some e =>
      rw [travelTimerExpiry_counting out defined]
      simp only [travelExpired_iff]
      rfl
  · unfold serialInProgress; rw [held]; rfl
  · unfold serialInProgress; rw [idle]; rfl

end Sys2Proof.Machine

namespace Sys2Proof.Machine

/-! # Voyage Control and the orders beside it (O5, O34, O37, O50, O51, O52) -/

/-! ## STOW_CLOCK_TICK (O5) -/

theorem stowClockTick_reset {s : State} (held : s.inReset = true) : exec .stowClockTick s = .next s :=
  congrArg Host.Outcome.next (if_pos held)

theorem stowClockTick_counting {s : State} (out : ¬ s.inReset = true) : exec .stowClockTick s = .next (tickState s) :=
  congrArg Host.Outcome.next (if_neg out)

/-- Settles O5: a tick counts out of reset only. -/
theorem tickMovesEveryCount : Obligations.TickMovesEveryCount := by
  intro s
  split
  · rename_i held; exact stowClockTick_reset held
  · rename_i out; exact stowClockTick_counting out

/-! ## LANE MASK (O34) -/

/-- The state whose lanes in the set have the admin state given (R160). -/
def masked (lanes : BitVec 256) (a : Admin) (s : State) : State :=
  { s with lanes := s.lanes.mapIdx fun i x => maskSlot lanes a (s.rangeBase + i) x }

theorem maskSlot_eq (lanes : BitVec 256) (a : Admin) (l : Lane) (x : LaneSlot) : maskSlot lanes a l x =
    { x with entry := x.entry.map fun e => if lanes.getLsbD l then { e with admin := a } else e } := by
  unfold maskSlot inMask
  split
  · rfl
  · rw [Option.map_id']

theorem slotOf_masked (lanes : BitVec 256) (a : Admin) (s : State) (l : Lane) :
    slotOf (masked lanes a s) l = (slotOf s l).map (maskSlot lanes a l) := by
  unfold slotOf masked
  split
  · rename_i base
    rw [List.getElem?_mapIdx, Nat.add_sub_cancel' base]
  · rfl

theorem maskOpens_iff {s : State} {lanes : BitVec 256} {a : Admin} : (s.voyage != .setup && maskOpens s lanes a) = true ↔
    s.voyage ≠ .setup ∧ a = .opened ∧ (definedLanes s).any (fun e => lanes.getLsbD e.1 && e.2.admin == .closed) = true := by
  unfold maskOpens inMask
  rw [Bool.and_eq_true, Bool.and_eq_true, bne_iff_ne, beq_iff_eq]

/-- LANE MASK's effect, and its one capacity-freed event (R160). -/
theorem actLaneMask_eq (lanes : BitVec 256) (a : Admin) (s : State) : actLaneMask lanes a s =
    if s.voyage ≠ .setup ∧ a = .opened
        ∧ (definedLanes s).any (fun e => lanes.getLsbD e.1 && e.2.admin == .closed) = true then
      capacityFreed (masked lanes a s)
    else masked lanes a s := by
  simp only [← maskOpens_iff]; rfl

/-- Settles O34: the mask maps the slots lane by lane, and only an opening outside SETUP frees capacity. -/
theorem laneMaskSetsAdmin : Obligations.LaneMaskSetsAdmin := by
  intro lanes a s ready
  refine ⟨masked lanes a (passDown (took .fwd s) (.laneMask lanes a)), ?_, rfl, List.length_mapIdx, fun l => ?_⟩
  · change Host.Outcome.next (takeFrame .fwd _ _ _ s) = _
    rw [takeFrame_ready ready rfl, actLaneMask_eq]
    refine congrArg _ ?_
    split
    · rename_i opens; exact (if_pos opens).symm
    · rename_i stays; exact (endEvent_same rfl).trans (if_neg stays).symm
  · exact (slotOf_masked lanes a _ l).trans (congrArg (Option.map · (slotOf s l)) (funext (maskSlot_eq lanes a l)))

/-! ## UNSEAL and the port advance (O37) -/

/-- The port advance writes descriptions alone: who is ABOARD stands. -/
theorem isAboard_advanceRec (l : Lane) (s : State) (h g : Handle) : isAboard (advanceRec l s h) g = isAboard s g := by
  unfold advanceRec isAboard
  dsimp only
  split
  · rw [post_only]; rfl
  · rw [getRec_setRec]
    split
    · rename_i same; rw [same]
    · rfl

theorem isAboard_advanceLane (l : Lane) (hs : List Handle) (g : Handle) : ∀ s : State,
    isAboard (advanceLane l hs s) g = isAboard s g := by
  induction hs with
  | nil => exact fun _ => rfl
  | cons h hs ih =>
    intro s
    rw [advanceLane, ih]
    split
    · exact isAboard_advanceRec l s h g
    · rfl

/-- Along one lane, the occupants ABOARD before the advance are the ones advanced. -/
theorem advanceLane_eq_foldl {s : State} (l : Lane) (hs : List Handle) : ∀ {t : State}, isAboard t = isAboard s →
    advanceLane l hs t
      = ((hs.filter (isAboard s)).map fun h => (l, h)).foldl (fun t x => advanceRec x.1 t x.2) t := by
  induction hs with
  | nil => exact fun _ => rfl
  | cons h hs ih =>
    intro t same
    rw [advanceLane, same, List.filter_cons]
    split
    · exact ih (funext fun g => (isAboard_advanceRec l t h g).trans (congrFun same g))
    · exact ih same

theorem advanceLanes_eq_foldl {s : State} (xs : List (Lane × LaneSlot)) : ∀ {t : State}, isAboard t = isAboard s →
    advanceLanes xs t
      = (xs.flatMap fun x => (x.2.occupants.filter (isAboard s)).map fun h => (x.1, h)).foldl
          (fun t x => advanceRec x.1 t x.2) t := by
  induction xs with
  | nil => exact fun _ => rfl
  | cons x xs ih =>
    intro t same
    have next : isAboard (advanceLane x.1 x.2.occupants t) = isAboard s :=
      funext fun g => (isAboard_advanceLane x.1 x.2.occupants g t).trans (congrFun same g)
    rw [advanceLanes, ih next, List.flatMap_cons, List.foldl_append, advanceLane_eq_foldl _ _ same]

theorem unseal_ready {advance : Bool} {s : State} (ready : Ready .fwd (.unsealOrder advance) s) :
    exec (.unsealOrder advance) s
      = .next (endEvent s (actUnseal advance (passDown (took .fwd s) (.unsealOrder advance)))) :=
  congrArg Host.Outcome.next (takeFrame_ready ready rfl)

/-- Settles O37: the advance lane by lane is one fold over the occupants ABOARD when the order came. -/
theorem unsealReopens : Obligations.UnsealReopens := by
  intro advance s ready on
  rw [unseal_ready ready]
  refine congrArg _ ?_
  by_cases closed : s.voyage = .closed
  · have reopens : actUnseal advance (passDown (took .fwd s) (.unsealOrder advance))
        = if advance then advanceLanes (laneSlots s) { on with voyage := .opened } else { on with voyage := .opened } :=
      if_pos closed
    rw [reopens, if_neg (not_not.2 closed)]
    cases advance with
    | false => exact endEvent_same rfl
    | true =>
      have advanced := advanceLanes_eq_foldl (s := s) (laneSlots s) (t := { on with voyage := .opened }) rfl
      rw [if_pos rfl, advanced]; rfl
  · have stands : actUnseal advance (passDown (took .fwd s) (.unsealOrder advance)) = on := if_neg closed
    rw [stands, if_pos closed]
    exact endEvent_same rfl

/-! ## OPEN VOYAGE (O50) -/

/-- The first of tests 2 to 5 that a defined lane fails (Table 8.2). -/
def laneFault (s : State) (e : LaneEntry) : Option ProfileFault :=
  if Table.find s.decks e.deck = none then some .deckMissing
  else if e.stopArm - (e.usable : Int) < -1500 then some .stopArm
  else if ∃ n, e.port = some n ∧ entryOf s n = none then some .portNeighbour
  else if ∃ n, e.starboard = some n ∧ entryOf s n = none then some .starboardNeighbour
  else none

theorem neighbourDefined_false_iff {s : State} {n : Option Lane} :
    (!neighbourDefined s n) = true ↔ ∃ l, n = some l ∧ entryOf s l = none := by
  unfold neighbourDefined
  cases n <;> simp

theorem laneError_eq (s : State) (l : Lane) (e : LaneEntry) :
    laneError s l e = (laneFault s e).map fun f => ⟨.lane, l, f⟩ := by
  unfold laneError laneFault
  simp only [neighbourDefined_false_iff, Option.isNone_iff_eq_none, apply_ite (Option.map _)]
  rfl

theorem laneFault_none_iff {s : State} {e : LaneEntry} : laneFault s e = none ↔
    Table.find s.decks e.deck ≠ none ∧ -1500 ≤ e.stopArm - (e.usable : Int)
      ∧ (∀ n, e.port = some n → entryOf s n ≠ none) ∧ (∀ n, e.starboard = some n → entryOf s n ≠ none) := by
  unfold laneFault
  simp only [ite_eq_iff, reduceCtorEq, and_false, false_or, and_true, not_lt, not_exists, not_and, ne_eq]

theorem lanesDefined_false_iff {s : State} {ls : List Lane} :
    (!lanesDefined s ls) = true ↔ ∃ l ∈ ls, entryOf s l = none := by
  unfold lanesDefined
  simp

theorem sectionError_hoist {s : State} {e : SectionEntry} (id : Nat) (missing : ∃ l ∈ e.hoist, entryOf s l = none) :
    sectionError s id e = some ⟨.sections, id, .hoistLane⟩ := if_pos (lanesDefined_false_iff.2 missing)

theorem sectionError_covered {s : State} {e : SectionEntry} (id : Nat) (hoist : ∀ l ∈ e.hoist, entryOf s l ≠ none)
    (missing : ∃ l ∈ e.covered, entryOf s l = none) : sectionError s id e = some ⟨.sections, id, .coveredLane⟩ := by
  have sound : ¬ (!lanesDefined s e.hoist) = true := fun bad => by
    obtain ⟨l, mem, none⟩ := lanesDefined_false_iff.1 bad
    exact hoist l mem none
  exact (if_neg sound).trans (if_pos (lanesDefined_false_iff.2 missing))

theorem sectionError_none_iff {s : State} {id : Nat} {e : SectionEntry} : sectionError s id e = none ↔
    ∀ l, l ∈ e.hoist ∨ l ∈ e.covered → entryOf s l ≠ none := by
  unfold sectionError
  simp only [lanesDefined_false_iff, ite_eq_iff, reduceCtorEq, and_false, false_or, and_true, not_exists, not_and,
    or_imp, forall_and, ne_eq]

/-- With some lane defined, the faults of the lanes come ahead of the faults of the sections (R152). -/
theorem profileError_defined {s : State} (some_ : definedLanes s ≠ []) : profileError s =
    ((definedLanes s).findSome? fun x => laneError s x.1 x.2).or (s.sections.findSome? fun x => sectionError s x.1 x.2) := by
  unfold profileError
  rw [if_neg (mt List.isEmpty_iff.1 some_)]
  cases (definedLanes s).findSome? fun x => laneError s x.1 x.2 <;> rfl

theorem laneErrors_none_iff {s : State} : ((definedLanes s).findSome? fun x => laneError s x.1 x.2) = none ↔
    ∀ l e, (l, e) ∈ definedLanes s → laneFault s e = none := by
  simp only [List.findSome?_eq_none_iff, laneError_eq, Option.map_eq_none_iff, Prod.forall]

theorem profileError_none_iff {s : State} : profileError s = none ↔
    definedLanes s ≠ [] ∧ (∀ l e, (l, e) ∈ definedLanes s → laneFault s e = none)
      ∧ ∀ x ∈ s.sections, ∀ l, l ∈ x.2.hoist ∨ l ∈ x.2.covered → entryOf s l ≠ none := by
  by_cases empty : definedLanes s = []
  · simp [profileError, empty]
  · rw [profileError_defined empty, Option.or_eq_none_iff, laneErrors_none_iff, List.findSome?_eq_none_iff]
    simp only [sectionError_none_iff, ne_eq, empty, not_false_eq_true, true_and]

/-- The lanes ascend, so the first with a fault is the lowest-numbered one (R152). -/
theorem profileError_lane {s : State} {l : Lane} {e : LaneEntry} {f : ProfileFault} (mem : (l, e) ∈ definedLanes s)
    (fails : laneFault s e = some f)
    (sound : ∀ l' e', (l', e') ∈ definedLanes s → l' < l → laneFault s e' = none) :
    profileError s = some ⟨.lane, l, f⟩ := by
  obtain ⟨below, above, parts⟩ := List.append_of_mem mem
  have ascend := definedLanes_ascend s
  rw [parts, List.pairwise_append] at ascend
  obtain ⟨-, -, lower⟩ := ascend
  have first : ((definedLanes s).findSome? fun x => laneError s x.1 x.2) = some ⟨.lane, l, f⟩ := by
    refine List.findSome?_eq_some_iff.2 ⟨below, (l, e), above, parts, ?_, fun x hx => ?_⟩
    · rw [laneError_eq, fails]; rfl
    · rw [laneError_eq, sound x.1 x.2 (parts ▸ List.mem_append_left _ hx) (lower x hx _ List.mem_cons_self)]
      rfl
  rw [profileError_defined (List.ne_nil_of_mem mem), first]; rfl

/-- With every lane sound, the first section with a fault names it (R152; log 26). -/
theorem profileError_section {s : State} {a b : List (Nat × SectionEntry)} {x : Nat × SectionEntry} {p : ProfileError}
    (some_ : definedLanes s ≠ []) (sound : ∀ l e, (l, e) ∈ definedLanes s → laneFault s e = none)
    (parts : s.sections = a ++ x :: b) (before : ∀ y ∈ a, ∀ n, n ∈ y.2.hoist ∨ n ∈ y.2.covered → entryOf s n ≠ none)
    (fails : sectionError s x.1 x.2 = some p) : profileError s = some p := by
  rw [profileError_defined some_, laneErrors_none_iff.2 sound, Option.none_or]
  exact List.findSome?_eq_some_iff.2 ⟨a, x, b, parts, fails, fun y hy => sectionError_none_iff.2 (before y hy)⟩

theorem actOpenVoyage_bad {s : State} {e : ProfileError} (setup : s.voyage = .setup) (found : profileError s = some e) :
    actOpenVoyage s = { st := s, code := .profileBad, body := .profileBad e.table e.index e.fault, after := .nothing } := by
  unfold actOpenVoyage
  rw [if_neg (not_not.2 setup), found]

theorem actOpenVoyage_sound {s : State} (setup : s.voyage = .setup) (found : profileError s = none) :
    actOpenVoyage s = answer { s with voyage := .opened } .empty := by
  unfold actOpenVoyage
  rw [if_neg (not_not.2 setup), found]

/-- Settles O50: the lanes' faults and the sections' are searched in the order of Table 8.2. -/
theorem openVoyageWhenProfileSound : Obligations.OpenVoyageWhenProfileSound := by
  refine ⟨fun q s ready => ?_, fun s => ?_, fun s => ?_⟩
  · change Host.Outcome.next (serve q .openVoyage actOpenVoyage s) = _
    by_cases setup : s.voyage = .setup
    · rw [if_neg (not_not.2 setup)]
      cases found : profileError s with
      | some e => exact congrArg _ (serve_replies ready (actOpenVoyage_bad (s := took .fwd s) setup found))
      | none => exact serve_takes ready (actOpenVoyage_sound (s := took .fwd s) setup found) rfl
    · rw [if_pos setup]
      exact serve_refuses ready (if_pos setup)
  · rw [profileError_none_iff]
    simp only [laneFault_none_iff]
  intro missing fault
  refine ⟨fun empty => ?_, fun l e f mem fails sound => profileError_lane mem fails sound,
    fun some_ sound a x b parts before => ⟨fun hoist => ?_, fun hoist covered => ?_⟩⟩
  · unfold profileError
    rw [if_pos (List.isEmpty_iff.2 empty)]
  · exact profileError_section some_ sound parts before (sectionError_hoist x.1 hoist)
  · exact profileError_section some_ sound parts before (sectionError_covered x.1 hoist covered)

/-! ## CLEAR VOYAGE (O51) -/

theorem clearVoyage_ready {q : ReqHead} {s : State} (ready : Addressed q .clearVoyage s) :
    exec (.clearVoyage q) s = .next (endEvent s (finish q (actClearVoyage (took .fwd s)))) :=
  congrArg Host.Outcome.next (takeFrame_ready ready.1 (beq_iff_eq.2 ready.2))

/-- The second step with its REPLY: beside the return queue nothing depends on which of the two frames is first (log 10). -/
theorem finish_clearSecond (q : ReqHead) (s : State) : finish q (clearSecond s) =
    { abandonQuietly (clearedState s) with
      origRet := s.origRet.filter (fun f => !isReportFrame f)
        ++ if Config.abortedAheadOfReply then abortedFrames s ++ [.reply q.tag s.position .ok .empty]
          else .reply q.tag s.position .ok .empty :: abortedFrames s } := by
  unfold clearSecond
  dsimp only
  split
  · rw [emitAllRet_eq, ← List.append_assoc]; rfl
  · unfold finish follow
    dsimp only
    rw [emitAllRet_eq, List.append_cons]; rfl

/-- Settles O51: by voyage state and pending-clear, the second step for either order of its two frames. -/
theorem clearVoyageInTwoSteps : Obligations.ClearVoyageInTwoSteps := by
  intro q s ready reply on
  rw [clearVoyage_ready ready]
  refine ⟨fun setup => ?_, fun sailing clear => ?_, fun sailing pending => ?_⟩
  · have act : actClearVoyage (took .fwd s) = answer on .empty := if_pos setup
    rw [act]
    exact congrArg _ (endEvent_same rfl)
  · have act : actClearVoyage (took .fwd s)
        = { st := { on with pendingClear := true }, code := .pending, body := .empty, after := .nothing } :=
      (if_neg sailing).trans (if_neg (by rw [show (took .fwd s).pendingClear = false from clear]; decide))
    rw [act]
    exact congrArg _ (endEvent_same rfl)
  · have act : actClearVoyage (took .fwd s) = clearSecond (took .fwd s) := (if_neg sailing).trans (if_pos pending)
    rw [act, finish_clearSecond, abortedFrames_eq]
    refine ⟨_, congrArg _ (endEvent_same rfl), rfl, ?_⟩
    dsimp only
    split
    · exact .inr (List.append_assoc ..).symm
    · exact .inl rfl

/-! ## BALLAST and READ VOYAGE (O52) -/

/-- New offsets move the projected moments by as much (R38, R162). -/
theorem projected_ballasted (s : State) (heel trim : Int) :
    projHeel { s with heelOffset := heel, trimOffset := trim } = projHeel s - s.heelOffset + heel
      ∧ projTrim { s with heelOffset := heel, trimOffset := trim } = projTrim s - s.trimOffset + trim := by
  have shift (a b c : Int) : a + c = b + c - b + a := by omega
  exact ⟨shift .., shift ..⟩

theorem outOfLimits_eq_decide (l : Limits) (h t : Int) :
    (heelOut l h || trimOut l t) = decide (l.hLim < (h.natAbs : Int) ∨ t < l.tMin ∨ l.tMax < t) := by
  unfold heelOut trimOut
  rw [Bool.decide_or, Bool.decide_or]

/-- STABILITY_OUT is set where a figure is out of limits, and stands otherwise (R16). -/
theorem testStability_eq (s : State) : testStability s =
    { s with notices := { s.notices with
      stabilityOut := s.notices.stabilityOut || (heelOut s.limits (projHeel s) || trimOut s.limits (projTrim s)) } } := by
  unfold testStability
  split
  · rename_i out; rw [out, Bool.or_true]; rfl
  · rename_i within; rw [Bool.eq_false_iff.2 within, Bool.or_false]

/-- What BALLAST records and answers outside SETUP (R162). -/
theorem actBallast_eq {s : State} (h v : BitVec 32) (sailing : s.voyage ≠ .setup) : actBallast h v s =
    (let newHeel := projHeel s - s.heelOffset + clampOffset h
    let newTrim := projTrim s - s.trimOffset + clampOffset v
    { st :=
        { s with
          heelOffset := clampOffset h, trimOffset := clampOffset v
          notices := { s.notices with
            stabilityOut := s.notices.stabilityOut || (heelOut s.limits newHeel || trimOut s.limits newTrim) } }
      code := .ok, body := .ballast (clampOffset h) (clampOffset v) newHeel newTrim, after := .freed }) := by
  obtain ⟨heel, trim⟩ := projected_ballasted s (clampOffset h) (clampOffset v)
  have tested := testStability_eq { s with heelOffset := clampOffset h, trimOffset := clampOffset v }
  rw [heel, trim] at tested
  unfold actBallast
  rw [if_neg sailing, tested, ← heel, ← trim]; rfl

theorem voyageView_eq (s : State) : voyageView s =
    { role := s.role, position := s.position, voyage := s.voyage, pendingClear := s.pendingClear, clock := s.stowClock
      heelOffset := s.heelOffset, trimOffset := s.trimOffset, projHeel := projHeel s, projTrim := projTrim s
      heelOut := decide (s.limits.hLim < ((projHeel s).natAbs : Int))
      trimOut := decide (projTrim s < s.limits.tMin ∨ s.limits.tMax < projTrim s) } := by
  unfold voyageView heelOut trimOut
  rw [Bool.decide_or]

/-- Settles O52: the figures under the new offsets, and the view of a state that stands. -/
theorem ballastAndReadVoyage : Obligations.BallastAndReadVoyage := by
  refine ⟨fun q h v s ready => ?_, fun q s ready => ?_⟩
  · intro heel trim newHeel newTrim out
    change Host.Outcome.next (serve q (.ballast h v) (actBallast h v) s) = _
    by_cases setup : s.voyage = .setup
    · rw [if_pos setup]
      exact serve_refuses ready (if_pos setup)
    · have act := actBallast_eq (s := took .fwd s) h v setup
      rw [if_neg setup, serve_freed ready act, outOfLimits_eq_decide]; rfl
  · rw [← voyageView_eq]
    exact serve_answers ready rfl

end Sys2Proof.Machine

namespace Sys2Proof.Machine

/-! # Frames sent and stowage reports (O9, O33) -/

/-! ## The arbiters (O9) -/

theorem arbiterSend_heldOff (o : OutPort) {s : State} (out : s.inReset = false) : exec (.arbiterSend o true) s = .next s := by
  change execArbiterSend o true s = _
  unfold execArbiterSend; rw [out]; rfl

theorem arbiterSend_fwd {s : State} (out : s.inReset = false) : exec (.arbiterSend .fwd false) s = .next (sendFwd s) := by
  change execArbiterSend .fwd false s = _
  unfold execArbiterSend; rw [out]; rfl

theorem arbiterSend_ret {s : State} (out : s.inReset = false) : exec (.arbiterSend .ret false) s = .next (sendRet s) := by
  change execArbiterSend .ret false s = _
  unfold execArbiterSend; rw [out]; rfl

theorem arbiterChoice_pass {pass orig : List Frame} {last : SendKind} {f : Frame} (turn : orig = [] ∨ last = .originated) :
    arbiterChoice (f :: pass) orig last = some .pass := by
  rcases turn with rfl | rfl
  · rfl
  · cases orig <;> rfl

theorem sendFwd_idle {s : State} (pass : s.passFwd = []) (orig : s.origFwd = []) : sendFwd s = s := by
  unfold sendFwd; rw [pass, orig]; rfl

theorem sendFwd_pass {s : State} {f : Frame} {t : List Frame} (queue : s.passFwd = f :: t)
    (turn : s.origFwd = [] ∨ s.lastFwd = .originated) :
    sendFwd s = { s with passFwd := t, lastFwd := .pass, drivenFwd := some (driven f) } := by
  unfold sendFwd; rw [queue, arbiterChoice_pass turn]; rfl

theorem sendFwd_originated {s : State} {f : Frame} {t : List Frame} (queue : s.origFwd = f :: t)
    (turn : s.passFwd = [] ∨ s.lastFwd = .pass) :
    sendFwd s = { s with origFwd := t, lastFwd := .originated, drivenFwd := some (driven f) } := by
  unfold sendFwd; rw [queue, arbiterChoice_originated turn]; rfl

theorem sendRet_idle {s : State} (pass : s.passRet = []) (orig : s.origRet = []) : sendRet s = s := by
  unfold sendRet; rw [pass, orig]; rfl

theorem sendRet_pass {s : State} {f : Frame} {t : List Frame} (queue : s.passRet = f :: t)
    (turn : s.origRet = [] ∨ s.lastRet = .originated) :
    sendRet s = { s with passRet := t, lastRet := .pass, drivenRet := some (driven f) } := by
  unfold sendRet; rw [queue, arbiterChoice_pass turn]; rfl

/-- Only a section frame of a section being emitted and a TRAILER move the report on (R171). -/
theorem reportSent_stands {s : State} {f : Frame} (still : s.emitting = false ∨ isSectionFrame f = false)
    (other : ∀ serial count, f ≠ .trailer serial count) : reportSent s f = s := by
  have idle (own : isSectionFrame f = true) : ¬ s.emitting = true := by
    rcases still with quiet | foreign
    · rw [quiet]; decide
    · rw [foreign] at own; cases own
  cases f with
  | sectionHeader _ _ _ _ _ _ => exact if_neg (idle rfl)
  | reportRecords _ _ _ => exact if_neg (idle rfl)
  | trailer serial count => exact absurd rfl (other serial count)
  | _ => rfl

/-- Settles O9: at each output the arbiter's choice by what waits and what was sent last, then the frame that leaves. -/
theorem arbitersAlternate : Obligations.ArbitersAlternate := by
  refine ⟨fun s out => ⟨arbiterSend_heldOff .fwd out, fun pass orig => ?_, fun f t queue turn => ?_, fun f t queue turn => ?_⟩,
    fun s out => ⟨arbiterSend_heldOff .ret out, fun pass orig => ?_, fun f t queue turn => ?_,
      fun f t queue turn still => ?_⟩⟩
  · rw [arbiterSend_fwd out, sendFwd_idle pass orig]
  · rw [arbiterSend_fwd out, sendFwd_pass queue turn]; rfl
  · rw [arbiterSend_fwd out, sendFwd_originated queue turn]; rfl
  · rw [arbiterSend_ret out, sendRet_idle pass orig]
  · rw [arbiterSend_ret out, sendRet_pass queue turn]; rfl
  · rw [arbiterSend_ret out, sendRet_originated queue turn]
    cases f with
    | trailer serial count =>
      cases role : s.role <;> rfl
    | _ => exact congrArg _ (reportSent_stands still fun _ _ => nofun)

/-! ## Reports (O33) -/

/-! ### What composing leaves of the rest, and what it does not read -/

/-- Composing touches the records, the order of departure and the section's own state alone (R168, R169). -/
theorem composeSection_only (s : State) (c : Criterion) (k : Token) : composeSection s c k =
    { s with
      records := (composeSection s c k).records, departures := (composeSection s c k).departures
      buffer := (composeSection s c k).buffer, emitting := true, heldToken := some k } := by
  unfold composeSection
  by_cases changed : c = .changed
  · simp only [if_pos changed]; rw [settleAllChanged_eq]
  · simp only [if_neg changed]

section
variable (s : State) (c : Criterion) (k : Token)

@[simp] theorem composeSection_position : (composeSection s c k).position = s.position := by rw [composeSection_only]
@[simp] theorem composeSection_notices : (composeSection s c k).notices = s.notices := by rw [composeSection_only]
@[simp] theorem composeSection_origRet : (composeSection s c k).origRet = s.origRet := by rw [composeSection_only]

end

/-- A state with what an earlier section holds replaced: buffer, token and the frames waiting on return out. -/
def withSectionQueue (s : State) (b : List ReportEntry) (k : Option Token) (q : List Frame) : State :=
  { s with buffer := b, heldToken := k, origRet := q }

theorem settleChanged_withSectionQueue (s : State) (h : Handle) (b : List ReportEntry) (k : Option Token) (q : List Frame) :
    settleChanged (withSectionQueue s b k q) h = withSectionQueue (settleChanged s h) b k q := by
  rw [settleChanged_eq, settleChanged_eq]; rfl

theorem settleAllChanged_withSectionQueue (b : List ReportEntry) (k : Option Token) (q : List Frame) (hs : List Handle) :
    ∀ s : State, settleAllChanged hs (withSectionQueue s b k q) = withSectionQueue (settleAllChanged hs s) b k q := by
  induction hs with
  | nil => exact fun _ => rfl
  | cons h t ih => intro s; rw [settleAllChanged, settleChanged_withSectionQueue, ih]; rfl

/-- What an earlier section holds has no part in the section composed. -/
theorem composeSection_withSectionQueue (s : State) (b : List ReportEntry) (k : Option Token) (q : List Frame) (c : Criterion)
    (held : Token) :
    composeSection (withSectionQueue s b k q) c held = { composeSection s c held with origRet := q } := by
  unfold composeSection
  by_cases changed : c = .changed
  · simp only [if_pos changed]
    have handles : sectionHandles (withSectionQueue s b k q) c = sectionHandles s c := rfl
    rw [handles, settleAllChanged_withSectionQueue]; rfl
  · simp only [if_neg changed]; rfl

/-! ### Taking a REPORT TOKEN -/

theorem endEarlierSection_eq (s : State) : endEarlierSection s =
    if s.emitting = true then withSectionQueue s [] none (s.origRet.filter fun f => !isSectionFrame f) else s := rfl

/-- A token taken: the new section alone is composed, and its header waits behind no frame of an earlier one (log 12). -/
theorem takeToken_eq (s : State) (k : Token) : takeToken s k =
    { composeSection s k.criterion { k with count := k.count + 1 } with
      origRet := (if s.emitting = true then s.origRet.filter (fun f => !isSectionFrame f) else s.origRet)
        ++ [sectionFrame s k.serial (sectionHandles s k.criterion).length] } := by
  unfold takeToken
  rw [endEarlierSection_eq]
  by_cases emitting : s.emitting = true
  · simp only [if_pos emitting]
    rw [composeSection_withSectionQueue]; rfl
  · simp only [if_neg emitting, emitRet, composeSection_origRet]

theorem takeToken_notices (s : State) (k : Token) : (takeToken s k).notices = s.notices := by
  simp only [takeToken_eq, composeSection_notices]

theorem reportToken_ready {k : Token} {s : State} (ready : Ready .fwd (.reportToken k) s) :
    exec (.reportToken k) s = .next (endEvent s (actReportToken k (took .fwd s))) :=
  congrArg Host.Outcome.next (takeFrame_ready ready rfl)

theorem actReportToken_takes {k : Token} {s : State} (role : s.role = .mid ∨ s.role = .tail) :
    actReportToken k s = takeToken s k := by
  unfold actReportToken
  rcases role with mid | tail
  · rw [mid]
  · rw [tail]

theorem actReportToken_passes {k : Token} {s : State} (role : ¬ (s.role = .mid ∨ s.role = .tail)) :
    actReportToken k s = passDown s (.reportToken k) := by
  obtain ⟨mid, tail⟩ := not_or.1 role
  unfold actReportToken
  cases is : s.role with
  | mid => exact absurd is mid
  | tail => exact absurd is tail
  | head => rfl
  | sole => rfl

/-! ### REPORT and TRAILER -/

theorem reportInProgress_iff {s : State} : reportInProgress s = true ↔ s.reportState ≠ .idle := bne_iff_ne

/-- REPLY, REPORT HEADER and SECTION stand behind what waits on return out, in that order (R165). -/
theorem finish_takeReport (q : ReqHead) (s : State) (c : Criterion) : finish q (clearPending (takeReport s c)) =
    { composeSection
        { s with reportSerial := s.reportSerial + 1, report := some (s.reportSerial + 1, c), reportState := .sending } c
        { serial := s.reportSerial + 1, criterion := c, count := 1 } with
      pendingClear := false
      origRet := s.origRet
        ++ [.reply q.tag s.position .ok (.reportSerial (s.reportSerial + 1)),
            .reportHeader (s.reportSerial + 1) c s.stowClock,
            sectionFrame s (s.reportSerial + 1) (sectionHandles s c).length] } := by
  simp only [finish, takeReport, clearPending, follow, emitAllRet_eq, emitRet, composeSection_position,
    composeSection_origRet, List.append_assoc]
  rfl

theorem report_takes {q : ReqHead} {cf : CriterionField} {c : Criterion} {s : State} (ready : Addressed q (.report cf) s)
    (act : actReport cf (took .fwd s) = takeReport (took .fwd s) c) :
    serve q (.report cf) (actReport cf) s = finish q (clearPending (takeReport (took .fwd s) c)) := by
  rw [serve_addressed ready, act]
  refine endEvent_same ?_
  simp only [finish_takeReport, composeSection_notices]
  rfl

theorem trailerEnds_iff {s : State} {serial : Byte} : trailerEnds s serial = true ↔
    s.role = .head ∧ s.reportState = .awaiting ∧ s.report.map Prod.fst = some serial := by
  unfold trailerEnds
  rw [Bool.and_eq_true, Bool.and_eq_true, beq_iff_eq, beq_iff_eq, beq_iff_eq, and_assoc]

theorem actTrailer_ends {serial : Byte} {count : Nat} {s : State}
    (ends : s.role = .head ∧ s.reportState = .awaiting ∧ s.report.map Prod.fst = some serial) :
    actTrailer serial count s = passUp (endReport s) (.trailer serial count) := by
  unfold actTrailer; rw [if_pos (trailerEnds_iff.2 ends)]

theorem actTrailer_passes {serial : Byte} {count : Nat} {s : State}
    (foreign : ¬ (s.role = .head ∧ s.reportState = .awaiting ∧ s.report.map Prod.fst = some serial)) :
    actTrailer serial count s = passUp s (.trailer serial count) := by
  unfold actTrailer; rw [if_neg (mt trailerEnds_iff.1 foreign)]

theorem trailer_ready {serial : Byte} {count : Nat} {s : State} (ready : Ready .ret (.trailer serial count) s) :
    exec (.trailer serial count) s = .next (endEvent s (actTrailer serial count (took .ret s))) :=
  congrArg Host.Outcome.next (takeFrame_ready ready rfl)

/-- Settles O33: REPORT by its refusals in order, the token and the TRAILER by role. -/
theorem reportsStartPassAndEnd : Obligations.ReportsStartPassAndEnd := by
  refine ⟨fun q cf s ready => ?_, ⟨rfl, rfl, rfl, fun _ => rfl, fun _ => rfl⟩, fun k s ready => ?_,
    fun serial count s ready => ?_⟩
  · change Host.Outcome.next (serve q (.report cf) (actReport cf) s) = _
    by_cases wrong : s.role = .mid ∨ s.role = .tail
    · rw [if_pos wrong]
      exact serve_refuses ready (if_pos wrong)
    rw [if_neg wrong]
    have act : actReport cf (took .fwd s) = _ := if_neg wrong
    cases good : criterionOf cf with
    | none =>
      rw [good] at act
      exact serve_refuses ready act
    | some c =>
      rw [good] at act
      by_cases busy : s.reportState ≠ .idle
      · have refused := serve_refuses ready (act.trans (if_pos (reportInProgress_iff.2 busy)))
        exact refused.trans (congrArg _ (if_pos busy).symm)
      · have taken := report_takes ready (act.trans (if_neg (mt reportInProgress_iff.1 busy)))
        rw [taken, finish_takeReport]
        exact congrArg _ (if_neg busy).symm
  · rw [reportToken_ready ready]
    by_cases role : s.role = .mid ∨ s.role = .tail
    · rw [if_pos role, actReportToken_takes (s := took .fwd s) role]
      refine congrArg _ ((endEvent_same (takeToken_notices (took .fwd s) k)).trans ?_)
      rw [takeToken_eq]; rfl
    · rw [if_neg role, actReportToken_passes (s := took .fwd s) role]
      exact congrArg _ (endEvent_same rfl)
  · rw [trailer_ready ready]
    by_cases ends : s.role = .head ∧ s.reportState = .awaiting ∧ s.report.map Prod.fst = some serial
    · rw [actTrailer_ends (s := took .ret s) ends]
      exact congrArg _ ((endEvent_same rfl).trans (if_pos ends).symm)
    · rw [actTrailer_passes (s := took .ret s) ends]
      exact congrArg _ ((endEvent_same rfl).trans (if_neg ends).symm)

end Sys2Proof.Machine

namespace Sys2Proof.Machine

/-! # While armed is set, no enabled flag is set (O57)

POWER_ON, ACK NOTICES and SET ENABLES apart, nothing changes an enable or sets armed (`masking`), whatever flags it sets. So an
event that begins quiet ends quiet: a flag it newly set under an enable has given ATTENTION, which clears armed. -/

/-! ## What an operation leaves of armed and the enables -/

/-- What decides which flags raise ATTENTION: armed and the nine enables (R179). -/
def masking (s : State) : Bool × NoticeSet := (s.armed, s.enables)

/-! ### Operations on records, lanes, notices and ports -/

section
variable (s : State)

@[simp] theorem masking_setRec (h : Handle) (r : UnitRec) : masking (setRec s h r) = masking s := rfl
@[simp] theorem masking_raiseNotice (n : Notice) : masking (raiseNotice s n) = masking s := rfl
@[simp] theorem masking_emitFwd (f : Frame) : masking (emitFwd s f) = masking s := rfl
@[simp] theorem masking_emitRet (f : Frame) : masking (emitRet s f) = masking s := rfl
@[simp] theorem masking_passDown (f : Frame) : masking (passDown s f) = masking s := rfl
@[simp] theorem masking_passUp (f : Frame) : masking (passUp s f) = masking s := rfl
@[simp] theorem masking_setSection (id : Nat) (e : SectionEntry) : masking (setSection s id e) = masking s := rfl
@[simp] theorem masking_setRxQueue (q : List Frame) (p : InPort) : masking (setRxQueue s q p) = masking s := by
  cases p <;> rfl
@[simp] theorem masking_modifySlot (l : Lane) (f : LaneSlot → LaneSlot) : masking (modifySlot s l f) = masking s := by
  rw [modifySlot_only]; rfl
@[simp] theorem masking_setSuspect (l : Lane) (b : Bool) : masking (setSuspect s l b) = masking s := masking_modifySlot ..
@[simp] theorem masking_setEntry (l : Lane) (e : Option LaneEntry) : masking (setEntry s l e) = masking s :=
  masking_modifySlot ..
@[simp] theorem masking_listAtTail (h : Handle) (l : Lane) : masking (listAtTail s h l) = masking s := by
  rw [listAtTail_only]; rfl
@[simp] theorem masking_listBehindAboard (h : Handle) (l : Lane) : masking (listBehindAboard s h l) = masking s := by
  rw [listBehindAboard_only]; rfl
@[simp] theorem masking_promote (h : Handle) (l : Lane) : masking (promote s h l) = masking s := by
  rw [promote_only]; rfl
@[simp] theorem masking_unlist (h : Handle) : masking (unlist s h) = masking s := by rw [unlist_only]; rfl
@[simp] theorem masking_freeRec (h : Handle) : masking (freeRec s h) = masking s := by rw [freeRec_only]; rfl
@[simp] theorem masking_freeAll (hs : List Handle) : masking (freeAll hs s) = masking s := by rw [freeAll_only]; rfl
@[simp] theorem masking_makeLeft (h : Handle) : masking (makeLeft s h) = masking s := by rw [makeLeft_only]; rfl
@[simp] theorem masking_joinReservations (h : Handle) : masking (joinReservations s h) = masking s := rfl
@[simp] theorem masking_makeReserved (h : Handle) : masking (makeReserved s h) = masking s := rfl
@[simp] theorem masking_withdrawOffer (h : Handle) : masking (withdrawOffer s h) = masking s := by
  rw [withdrawOffer_only]; rfl
@[simp] theorem masking_dropReservation (h : Handle) : masking (dropReservation s h) = masking s := by
  rw [dropReservation_only]; rfl
@[simp] theorem masking_post (k : ExcKind) (m : Option Mark) (l : Option Lane) (m2 : Option Mark) (d : Option ExcDetail) :
    masking (post s k m l m2 d) = masking s := by rw [post_only]; rfl
@[simp] theorem masking_testStability : masking (testStability s) = masking s := by rw [testStability_only]; rfl
@[simp] theorem masking_judge (m : Mark) (l : Lane) (rank : Nat) (a : Option UnitRec) :
    masking (judge s m l rank a) = masking s := by rw [judge_only]; rfl
@[simp] theorem masking_emitAllRet (fs : List Frame) : masking (emitAllRet fs s) = masking s := by
  rw [emitAllRet_eq]; rfl
@[simp] theorem masking_stampState (c : CheckIn) : masking (stampState s c) = masking s := rfl

end

theorem masking_allocate {s t : State} {h : Handle} (e : allocate s = some (h, t)) : masking t = masking s := by
  rw [allocate_only e]; rfl

theorem masking_arrive (s : State) (p : InPort) (f : Frame) : masking (arrive s p f) = masking s := by
  fun_cases arrive s p f <;> simp

/-! ### The bid chain (chapters 4 and 5) -/

@[simp] theorem masking_placeOffer (s : State) (u : UnitDesc) (n : Seq) (l : Lane) :
    masking (placeOffer s u n l) = masking s := by
  fun_cases placeOffer s u n l with
  | case1 => rfl
  | case2 h a e => exact ((masking_listAtTail ..).trans (masking_setRec ..)).trans (masking_allocate e)

@[simp] theorem masking_bidDuplicate (s : State) (c : CheckIn) (h : Handle) : masking (bidDuplicate s c h).2 = masking s := by
  unfold bidDuplicate
  dsimp only
  split
  · rfl
  · dsimp only; split <;> rfl

@[simp] theorem masking_bidCompete (s : State) (c : CheckIn) (u : UnitDesc) : masking (bidCompete s c u).2 = masking s := by
  fun_cases bidCompete s c u <;> simp

@[simp] theorem masking_bidStep (s : State) (c : CheckIn) : masking (bidStep s c).2 = masking s := by
  fun_cases bidStep s c <;> simp

@[simp] theorem masking_lateReserve (s : State) (u : UnitDesc) (n : Seq) (l : Lane) :
    masking (lateReserve s u n l) = masking s := by
  fun_cases lateReserve s u n l with
  | case1 => rfl
  | case2 h a e => rw [masking_post, masking_joinReservations, masking_listAtTail, masking_setRec, masking_allocate e]

@[simp] theorem masking_lateConfirm (s : State) (c : Confirm) (l : Lane) : masking (lateConfirm s c l).2 = masking s := by
  unfold lateConfirm
  split
  · exact masking_lateReserve ..
  · dsimp only; split <;> rfl

@[simp] theorem masking_confirmWinner (s : State) (c : Confirm) (l : Lane) : masking (confirmWinner s c l).2 = masking s := by
  fun_cases confirmWinner s c l <;> simp
  rfl

@[simp] theorem masking_confirmOther (s : State) (c : Confirm) : masking (confirmOther s c) = masking s := by
  fun_cases confirmOther s c <;> simp

@[simp] theorem masking_confirmStep (s : State) (c : Confirm) : masking (confirmStep s c).2 = masking s := by
  fun_cases confirmStep s c <;> simp

@[simp] theorem masking_holdUnit (s : State) (c : Confirm) (r : NoneReason) : masking (holdUnit s c r) = masking s := by
  fun_cases holdUnit s c r <;> rfl

@[simp] theorem masking_headConsume (s : State) (c : Confirm) : masking (headConsume s c) = masking s := by
  fun_cases headConsume s c <;> simp

@[simp] theorem masking_emitDown (s : State) (f : Option Frame) : masking (emitDown s f) = masking s := by
  rw [emitDown_eq]; rfl

@[simp] theorem masking_settleTail (s : State) (c : CheckIn) : masking (settleTail s c) = masking s := by
  simp [settleTail]

@[simp] theorem masking_settleSole (s : State) (c : CheckIn) : masking (settleSole s c) = masking s := by
  simp [settleSole]

@[simp] theorem masking_startRetry (s : State) : masking (startRetry s) = masking s := by
  have popped (rest : List HoldEntry) : masking { s with holds := rest } = masking s := rfl
  unfold startRetry
  split
  · rfl
  split
  · rfl
  · dsimp only; split <;> simp [popped]

@[simp] theorem masking_capacityFreed (s : State) : masking (capacityFreed s) = masking s := by
  fun_cases capacityFreed s <;> simp

theorem masking_actCheckIn (c : CheckIn) (s : State) : masking (actCheckIn c s) = masking s := by
  fun_cases actCheckIn c s with
  | case1 => unfold checkInHead; split <;> simp
  | case2 => simp
  | case3 => simp
  | case4 => unfold checkInSole; split <;> simp

theorem masking_actConfirm (c : Confirm) (s : State) : masking (actConfirm c s) = masking s := by
  unfold actConfirm; dsimp only; split <;> simp

theorem masking_actFreed (p : Pos) (s : State) : masking (actFreed p s) = masking s := by
  fun_cases actFreed p s <;> simp

/-! ### Tallies (chapter 6) -/

@[simp] theorem masking_postLimit (s : State) (m : Mark) (l : Lane) (f : List Check) :
    masking (postLimit s m l f) = masking s := by rw [postLimit_only]; rfl

@[simp] theorem masking_postExitOrder (b s : State) (h : Handle) (m : Mark) :
    masking (postExitOrder b s h m) = masking s := by rw [postExitOrder_only]; rfl

@[simp] theorem masking_unrecorded (s : State) (m : Mark) (l : Lane) : masking (unrecorded s m l).st = masking s := by
  simp [unrecorded]

@[simp] theorem masking_recorded (s : State) : masking (recorded s).st = masking s := rfl

@[simp] theorem masking_noTally (s : State) : masking (noTally s).st = masking s := rfl

@[simp] theorem masking_refusedForced (s : State) : masking (refusedForced s) = masking s := by
  unfold refusedForced; split <;> rfl

@[simp] theorem masking_tallyCommit (s : State) (m : Mark) (l : Lane) (h : Handle) :
    masking (tallyCommit s m l h).st = masking s := by
  simp only [tallyCommit, masking_recorded, masking_judge, masking_promote]; rfl

@[simp] theorem masking_tallyMove (s : State) (m : Mark) (l : Lane) (h : Handle) :
    masking (tallyMove s m l h).st = masking s := by
  unfold tallyMove
  split
  · simp only [masking_recorded, masking_judge, masking_postLimit, masking_post, masking_listBehindAboard, masking_unlist]
    rfl
  · exact masking_unrecorded ..

@[simp] theorem masking_tallyConvert (s : State) (m : Mark) (l : Lane) (h : Handle) :
    masking (tallyConvert s m l h).st = masking s := by
  unfold tallyConvert
  split
  · simp only [masking_recorded, masking_judge, masking_post, masking_listBehindAboard, masking_setRec, masking_unlist]
    rfl
  · exact masking_unrecorded ..

@[simp] theorem masking_tallyRestow (s : State) (m : Mark) (l : Lane) (h : Handle) :
    masking (tallyRestow s m l h).st = masking s := by
  unfold tallyRestow
  split
  · split
    · exact masking_unrecorded ..
    · rename_i e; simp [masking_allocate e]
  · simp

@[simp] theorem masking_tallyForced (s : State) (m : Mark) (l : Lane) (d : Option Desc) :
    masking (tallyForced s m l d).st = masking s := by
  unfold tallyForced
  split
  · split
    · exact masking_unrecorded ..
    · rename_i e; simp [masking_allocate e]
  · simp

@[simp] theorem masking_tallyOnAction (s : State) (m : Mark) (l : Lane) (d : Option Desc) :
    masking (tallyOnAction s m l d).st = masking s := by
  fun_cases tallyOnAction s m l d <;> simp [tallyElsewhere, tallyRestowElsewhere, tallyRepeat]

@[simp] theorem masking_tallyOffAction (s : State) (m : Mark) : masking (tallyOffAction s m).st = masking s := by
  fun_cases tallyOffAction s m <;> simp

@[simp] theorem masking_postClosed (s : State) (m : Mark) (l : Lane) (b : Bool) :
    masking (postClosed s m l b) = masking s := by fun_cases postClosed s m l b <;> simp

@[simp] theorem masking_detect (s : State) (k : ExcKind) (m : Mark) (l : Lane) (b : Bool) :
    masking (detect s k m l b) = masking s := by fun_cases detect s k m l b <;> simp

@[simp] theorem masking_tallyFreed (s : State) (b : Bool) : masking (tallyFreed s b) = masking s := by
  fun_cases tallyFreed s b <;> simp

theorem masking_actTallyOn (m : Mark) (l : Lane) (d : Option Desc) (placed : Bool) (s : State) :
    masking (actTallyOn m l d placed s) = masking s := by
  unfold actTallyOn; split <;> simp

theorem masking_actTallyOff (m : Mark) (l : Lane) (removed : Bool) (s : State) :
    masking (actTallyOff m l removed s) = masking s := by
  unfold actTallyOff; split <;> simp

/-! ### Hoistable decks (chapter 7) -/

@[simp] theorem masking_postHeights (x : List (Lane × Handle)) (s : State) : masking (postHeights x s) = masking s := by
  fun_induction postHeights x s with
  | case1 => rfl
  | case2 s l h t ih => rw [ih, masking_post]

@[simp] theorem masking_withdrawAll (hs : List Handle) (s : State) : masking (withdrawAll hs s) = masking s := by
  fun_induction withdrawAll hs s with
  | case1 => rfl
  | case2 s h t ih => rw [ih, masking_withdrawOffer]

@[simp] theorem masking_statusDown (s : State) (id : Nat) (e : SectionEntry) : masking (statusDown s id e) = masking s := by
  fun_cases statusDown s id e <;> simp [downUnpermitted, postHoist]

@[simp] theorem masking_statusUp (s : State) (id : Nat) (e : SectionEntry) : masking (statusUp s id e) = masking s := by
  unfold statusUp
  dsimp only
  split <;> simp [postHoist]

theorem masking_actHoistStatus (target : Pos) (id : Nat) (down : Bool) (s : State) :
    masking (actHoistStatus target id down s) = masking s := by
  unfold actHoistStatus
  rw [masking_passDown]
  split
  · split
    · rfl
    · split <;> simp
  · rfl

theorem masking_expireTravel (s : State) (id : Nat) (e : SectionEntry) : masking (expireTravel s id e) = masking s := by
  simp [expireTravel]

/-! ### Stowage reports (chapter 9) -/

@[simp] theorem masking_composeSection (s : State) (c : Criterion) (k : Token) :
    masking (composeSection s c k) = masking s := by rw [composeSection_only]; rfl

theorem masking_actReportToken (k : Token) (s : State) : masking (actReportToken k s) = masking s := by
  have ended : masking (endEarlierSection s) = masking s := by unfold endEarlierSection; split <;> rfl
  fun_cases actReportToken k s <;> simp [takeToken, ended]

theorem masking_actTrailer (serial : Byte) (count : Nat) (s : State) : masking (actTrailer serial count s) = masking s := by
  unfold actTrailer
  rw [masking_passUp]
  split <;> rfl

/-! ### Fast orders -/

theorem masking_actLaneMask (lanes : BitVec 256) (action : Admin) (s : State) :
    masking (actLaneMask lanes action s) = masking s := by
  unfold actLaneMask
  dsimp only
  split
  · exact masking_capacityFreed _
  · rfl

theorem masking_actAbort (s : State) : masking (actAbort s) = masking s := by
  rw [actAbort_eq, freeAll_only]; rfl

theorem masking_actSeal (s : State) : masking (actSeal s) = masking s := by
  by_cases opened : s.voyage = .opened
  · rw [actSeal_open opened, freeAll_only]; rfl
  · unfold actSeal; rw [if_neg opened]

@[simp] theorem masking_advanceRec (l : Lane) (s : State) (h : Handle) : masking (advanceRec l s h) = masking s := by
  unfold advanceRec
  dsimp only
  split <;> simp

@[simp] theorem masking_advanceLane (l : Lane) (hs : List Handle) (s : State) : masking (advanceLane l hs s) = masking s := by
  fun_induction advanceLane l hs s with
  | case1 => rfl
  | case2 s h t ih => rw [ih]; split <;> simp

@[simp] theorem masking_advanceLanes (xs : List (Lane × LaneSlot)) (s : State) : masking (advanceLanes xs s) = masking s := by
  fun_induction advanceLanes xs s with
  | case1 => rfl
  | case2 s x t ih => rw [ih, masking_advanceLane]

theorem masking_actUnseal (advance : Bool) (s : State) : masking (actUnseal advance s) = masking s := by
  unfold actUnseal
  dsimp only
  split
  · split
    · exact masking_advanceLanes _ _
    · rfl
  · rfl

theorem masking_actCancel (m : Mark) (s : State) : masking (actCancel m s) = masking s := by
  have held : masking (cancelHeld s m) = masking s := by unfold cancelHeld; split <;> rfl
  unfold actCancel
  dsimp only
  split
  · exact held
  · split <;> simp [cancelReservation, held]

/-! ### Addressed requests -/

theorem masking_actWriteRange (base count : Nat) (s : State) : masking (actWriteRange base count s).st = masking s := by
  fun_cases actWriteRange base count s <;> rfl

theorem masking_actWriteLane (l : Lane) (f : LaneFields) (s : State) : masking (actWriteLane l f s).st = masking s := by
  have define_ : masking (defineLane s l f).st = masking s := by
    fun_cases defineLane s l f <;> simp [refuse, taken, answer]
  have update (e : LaneEntry) : masking (updateLane s l e f).st = masking s := by
    unfold updateLane
    dsimp only
    split
    · rfl
    · split
      · simp
      · rfl
  fun_cases actWriteLane l f s with
  | case1 => rfl
  | case2 => exact define_
  | case3 => exact update _

theorem masking_actUndefineLane (l : Lane) (s : State) : masking (actUndefineLane l s).st = masking s := by
  fun_cases actUndefineLane l s <;> simp [refuse, taken, answer]

theorem masking_actWriteDeck (deck limit : Nat) (s : State) : masking (actWriteDeck deck limit s).st = masking s := by
  fun_cases actWriteDeck deck limit s <;> rfl

theorem masking_actRemoveDeck (deck : Nat) (s : State) : masking (actRemoveDeck deck s).st = masking s := by
  fun_cases actRemoveDeck deck s <;> rfl

theorem masking_actWriteSection (id : Nat) (hoist covered : List Lane) (reduced : Nat) (travel : Option Nat) (s : State) :
    masking (actWriteSection id hoist covered reduced travel s).st = masking s := by
  fun_cases actWriteSection id hoist covered reduced travel s <;> rfl

theorem masking_actRemoveSection (id : Nat) (s : State) : masking (actRemoveSection id s).st = masking s := by
  fun_cases actRemoveSection id s <;> rfl

theorem masking_actWriteSegregation (ts : List (Nat × Nat × Nat)) (s : State) :
    masking (actWriteSegregation ts s).st = masking s := by
  fun_cases actWriteSegregation ts s <;> rfl

theorem masking_actWriteLimits (hLim tMin tMax : Option Int) (s : State) :
    masking (actWriteLimits hLim tMin tMax s).st = masking s := by
  unfold actWriteLimits
  dsimp only
  split
  · rfl
  · dsimp only [taken, answer]
    split
    · rfl
    · exact masking_testStability _

theorem masking_actWritePolicy (f : PolicyFields) (s : State) : masking (actWritePolicy f s).st = masking s := by
  fun_cases actWritePolicy f s <;> rfl

theorem masking_actWriteGaps (g : PerKind (Option Nat)) (s : State) : masking (actWriteGaps g s).st = masking s := by
  fun_cases actWriteGaps g s <;> rfl

theorem masking_actWriteDefaultUnit (d : Desc) (s : State) : masking (actWriteDefaultUnit d s).st = masking s := by
  fun_cases actWriteDefaultUnit d s <;> rfl

theorem masking_placeTrial (s : State) (u : UnitDesc) (b : Best) : masking (placeTrial s u b).st = masking s := by
  fun_cases placeTrial s u b with
  | case1 => rfl
  | case2 h a e => exact ((masking_listAtTail ..).trans (masking_setRec ..)).trans (masking_allocate e)

theorem masking_actTrial (d : Desc) (s : State) : masking (actTrial d s).st = masking s := by
  fun_cases actTrial d s
  case case7 => exact masking_placeTrial ..
  all_goals rfl

theorem masking_actUndo (s : State) : masking (actUndo s).st = masking s := by
  fun_cases actUndo s with
  | case1 => rfl
  | case2 h t => exact masking_freeRec _ h

theorem masking_actCommitTrials (s : State) : masking (actCommitTrials s).st = masking s := by
  unfold actCommitTrials
  split
  · rfl
  · dsimp only; rw [commitEach_only]; rfl

theorem masking_actDeploy (id : Nat) (s : State) : masking (actDeploy id s).st = masking s := by
  fun_cases actDeploy id s <;> rfl

theorem masking_actStow (id : Nat) (s : State) : masking (actStow id s).st = masking s := by
  fun_cases actStow id s <;> rfl

theorem masking_actOpenVoyage (s : State) : masking (actOpenVoyage s).st = masking s := by
  fun_cases actOpenVoyage s <;> rfl

theorem masking_actClearVoyage (s : State) : masking (actClearVoyage s).st = masking s := by
  have second : masking (clearSecond s).st = masking s := by
    unfold clearSecond
    dsimp only
    split
    · exact masking_emitAllRet _ _
    · rfl
  fun_cases actClearVoyage s with
  | case1 => rfl
  | case2 => exact second
  | case3 => rfl

theorem masking_actBallast (heel trim : BitVec 32) (s : State) : masking (actBallast heel trim s).st = masking s := by
  fun_cases actBallast heel trim s with
  | case1 => rfl
  | case2 => exact masking_testStability _

theorem masking_actReport (f : CriterionField) (s : State) : masking (actReport f s).st = masking s := by
  fun_cases actReport f s
  case case4 => exact masking_composeSection ..
  all_goals rfl

theorem masking_actDrainLog (count : Nat) (s : State) : masking (actDrainLog count s).st = masking s := by
  fun_cases actDrainLog count s <;> rfl

end Sys2Proof.Machine

namespace Sys2Proof.Machine

/-! ## Flag by flag -/

/-- One of the nine flags of a set. -/
def flagOf (n : NoticeSet) : Notice → Bool
  | .logged => n.logged
  | .logFull => n.logFull
  | .stabilityOut => n.stabilityOut
  | .lapsed => n.lapsed
  | .hoistFault => n.hoistFault
  | .recordsLow => n.recordsLow
  | .linkError => n.linkError
  | .suspectLane => n.suspectLane
  | .holdOverflow => n.holdOverflow

theorem flagOf_and (a b : NoticeSet) (k : Notice) : flagOf (noticeAnd a b) k = (flagOf a k && flagOf b k) := by
  cases k <;> rfl

theorem flagOf_minus (a b : NoticeSet) (k : Notice) : flagOf (noticeMinus a b) k = (flagOf a k && !flagOf b k) := by
  cases k <;> rfl

theorem noticeAny_eq_false_iff {n : NoticeSet} : noticeAny n = false ↔ ∀ k, flagOf n k = false := by
  constructor
  · intro none k
    simp only [noticeAny, Bool.or_eq_false_iff] at none
    cases k <;> simp [flagOf, none]
  · intro clear
    simp only [noticeAny, Bool.or_eq_false_iff]
    exact ⟨⟨⟨⟨⟨⟨⟨⟨clear .logged, clear .logFull⟩, clear .stabilityOut⟩, clear .lapsed⟩, clear .hoistFault⟩,
      clear .recordsLow⟩, clear .linkError⟩, clear .suspectLane⟩, clear .holdOverflow⟩

/-- No flag of a set is enabled. -/
theorem noneEnabled_iff {n e : NoticeSet} :
    noticeAny (noticeAnd n e) = false ↔ ∀ k, flagOf n k = true → flagOf e k = false := by
  simp only [noticeAny_eq_false_iff, flagOf_and, Bool.and_eq_false_imp]

/-- Where no flag set before is enabled, and none newly set is, none set now is. -/
theorem noneEnabled_of_new {before now e : NoticeSet} (old : noticeAny (noticeAnd before e) = false)
    (new : noticeAny (noticeAnd (noticeMinus now before) e) = false) : noticeAny (noticeAnd now e) = false := by
  rw [noneEnabled_iff] at old new ⊢
  intro k set
  by_cases was : flagOf before k = true
  · exact old k was
  · exact new k (by simp [flagOf_minus, set, was])

/-- Where no flag is enabled under the old enables, nor under the newly set ones, none is under the new enables. -/
theorem noneEnabled_of_newEnables {n before now : NoticeSet} (old : noticeAny (noticeAnd n before) = false)
    (new : noticeAny (noticeAnd n (noticeMinus now before)) = false) : noticeAny (noticeAnd n now) = false := by
  rw [noneEnabled_iff] at old new ⊢
  intro k set
  simpa [flagOf_minus, old k set] using new k set

/-! ## The end of an event -/

/-- An event that only clears flags raises no ATTENTION. -/
theorem endEvent_cleared {s t : State} {flags : NoticeSet} (cleared : t.notices = noticeMinus s.notices flags) :
    endEvent s t = t := by
  have noneNew : noticeAny (noticeAnd (noticeMinus t.notices s.notices) t.enables) = false := by
    rw [noneEnabled_iff, cleared]
    intro k new
    simp only [flagOf_minus, Bool.and_eq_true, Bool.not_eq_true'] at new
    obtain ⟨⟨was, -⟩, wasNot⟩ := new
    rw [was] at wasNot; cases wasNot
  simp [endEvent, noneNew]

/-- With armed clear an event ends without ATTENTION. -/
theorem endEvent_disarmed {s t : State} (disarmed : t.armed = false) : endEvent s t = t := by
  simp [endEvent, disarmed]

theorem quiet_of_disarmed {s : State} (disarmed : s.armed = false) : ArmedQuiet s := by
  intro armed; rw [disarmed] at armed; cases armed

/-- The end of an event leaves a quiet state quiet. -/
theorem quiet_endEvent {s t : State} (quiet : ArmedQuiet t) : ArmedQuiet (endEvent s t) := by
  unfold endEvent
  split
  · exact quiet_of_disarmed (emitAttention_armed t)
  · exact quiet

/-- Between the two states the enables stand and armed has not been set. -/
structure NotRearmed (s t : State) : Prop where
  enables : t.enables = s.enables
  armed : t.armed = true → s.armed = true

/-- An event that neither sets armed nor changes an enable ends quiet if it began so: what it newly set under an enable has
given ATTENTION and cleared armed (R179). -/
theorem NotRearmed.quiet_endEvent {s t : State} (u : NotRearmed s t) (quiet : ArmedQuiet s) : ArmedQuiet (endEvent s t) := by
  unfold endEvent
  split
  · exact quiet_of_disarmed (emitAttention_armed t)
  · rename_i silent
    intro armed
    have old : noticeAny (noticeAnd s.notices t.enables) = false := u.enables ▸ quiet (u.armed armed)
    exact noneEnabled_of_new old (by simpa [armed] using silent)

theorem ArmedQuiet.of_same {s t : State} (quiet : ArmedQuiet s) (mask : masking t = masking s)
    (notices : t.notices = s.notices) : ArmedQuiet t := by
  obtain ⟨armed, enables⟩ := Prod.mk.inj mask
  unfold ArmedQuiet
  rw [armed, enables, notices]
  exact quiet

theorem NotRearmed.trans {s t u : State} (a : NotRearmed s t) (b : NotRearmed t u) : NotRearmed s u :=
  ⟨b.enables.trans a.enables, a.armed ∘ b.armed⟩

theorem NotRearmed.of_masking {s t : State} (same : masking t = masking s) : NotRearmed s t := by
  obtain ⟨armed, enables⟩ := Prod.mk.inj same
  exact ⟨enables, fun set => armed ▸ set⟩

/-- The REPLY and what follows it set no enable, and armed is at most cleared (R179). -/
theorem notRearmed_finish (q : ReqHead) (a : Answer) : NotRearmed a.st (finish q a) := by
  unfold finish
  cases a.after with
  | nothing => exact .of_masking rfl
  | freed => exact .of_masking (masking_capacityFreed _)
  | attention => exact ⟨rfl, fun set => by cases set⟩
  | frames fs => exact .of_masking (masking_emitAllRet _ fs)

theorem finish_attention {a : Answer} (e : a.after = .attention) (q : ReqHead) :
    finish q a = emitAttention (emitRet a.st (.reply q.tag a.st.position a.code a.body)) := by
  unfold finish; rw [e]; rfl

theorem finish_nothing {a : Answer} (e : a.after = .nothing) (q : ReqHead) :
    finish q a = emitRet a.st (.reply q.tag a.st.position a.code a.body) := by
  unfold finish; rw [e]; rfl

/-! ## Taking a frame -/

/-- A frame that does not stand first in line is not first in line by arriving in a full queue, so that a frame taken has
raised no LINK_ERROR in this event (R183). -/
theorem arrive_notices_of_first {s : State} {p : InPort} {f : Frame} (behind : (rxQueue s p).head? ≠ some f)
    (first : (rxQueue (arrive s p f) p).head? = some f) : (arrive s p f).notices = s.notices := by
  unfold arrive at first ⊢
  split at first
  case isTrue => exact absurd first behind
  split at first
  case isFalse => exact absurd (by cases p <;> exact first) behind
  rename_i room
  rw [if_neg ‹_›, if_pos room, setRxQueue_notices]

/-- What a command that takes a frame comes to: nothing in reset, an arrival alone, or the action, on a state whose flags,
enables and armed are still those the event began with. -/
theorem takeFrame_cases (p : InPort) (f : Frame) (mine : State → Bool) (act : State → State) (s : State) :
    takeFrame p f mine act s = s
      ∨ (∃ w, masking w = masking s ∧ takeFrame p f mine act s = endEvent s w)
      ∨ ∃ w, masking w = masking s ∧ w.notices = s.notices ∧ takeFrame p f mine act s = endEvent s (act w) := by
  unfold takeFrame
  split
  · exact .inl rfl
  right
  generalize line : (if (rxQueue s p).head? = some f then s else arrive s p f) = w
  have mask : masking w = masking s := by rw [← line]; split <;> simp [masking_arrive]
  dsimp only
  split
  · rename_i ready
    simp only [Bool.and_eq_true, decide_eq_true_eq] at ready
    obtain ⟨⟨-, first⟩, -⟩ := ready
    refine .inr ⟨_, (masking_setRxQueue w _ p).trans mask, ?_, rfl⟩
    rw [setRxQueue_notices, ← line]
    split
    · rfl
    · rename_i behind
      rw [← line, if_neg behind] at first
      exact arrive_notices_of_first behind first
  · exact .inl ⟨w, mask, rfl⟩

/-- A command that takes a frame keeps the condition where its action leaves enables and armed alone. -/
theorem quiet_takeFrame {p : InPort} {f : Frame} {mine : State → Bool} {act : State → State}
    (k : ∀ u, NotRearmed u (act u)) {s : State} (quiet : ArmedQuiet s) : ArmedQuiet (takeFrame p f mine act s) := by
  obtain same | ⟨w, mask, waits⟩ | ⟨w, mask, -, taken⟩ := takeFrame_cases p f mine act s
  · rw [same]; exact quiet
  · rw [waits]; exact (NotRearmed.of_masking mask).quiet_endEvent quiet
  · rw [taken]; exact ((NotRearmed.of_masking mask).trans (k w)).quiet_endEvent quiet

theorem quiet_takeOrder {f : Frame} {act : State → State} (k : ∀ u, masking (act u) = masking u) {s : State}
    (quiet : ArmedQuiet s) : ArmedQuiet (takeOrder f act s) :=
  quiet_takeFrame (fun u => .of_masking ((k _).trans (masking_passDown u f))) quiet

/-- An addressed request keeps the condition where its action leaves enables and armed alone. -/
theorem quiet_serve {q : ReqHead} {body : ReqBody} {act : State → Answer} (k : ∀ u, masking (act u).st = masking u)
    {s : State} (quiet : ArmedQuiet s) : ArmedQuiet (serve q body act s) :=
  quiet_takeFrame (fun u => (NotRearmed.of_masking (t := (clearPending (act u)).st) (k u)).trans (notRearmed_finish q _)) quiet

/-! ## ACK NOTICES and SET ENABLES -/

theorem ackNotices_attention {flags : NoticeSet} {s : State}
    (left : noticeAny (noticeAnd (noticeMinus s.notices flags) s.enables) = true) :
    (clearPending (actAckNotices flags s)).after = .attention := if_pos left

theorem ackNotices_nothing {flags : NoticeSet} {s : State}
    (left : ¬ noticeAny (noticeAnd (noticeMinus s.notices flags) s.enables) = true) :
    (clearPending (actAckNotices flags s)).after = .nothing := if_neg left

theorem setEnables_attention {enables : NoticeSet} {s : State} (armed : s.armed = true)
    (new : noticeAny (noticeAnd s.notices (noticeMinus enables s.enables)) = true) :
    (clearPending (actSetEnables enables s)).after = .attention := if_pos (by rw [armed, new]; rfl)

theorem setEnables_nothing {enables : NoticeSet} {s : State}
    (silent : ¬ (s.armed = true ∧ noticeAny (noticeAnd s.notices (noticeMinus enables s.enables)) = true)) :
    (clearPending (actSetEnables enables s)).after = .nothing := if_neg (mt Bool.and_eq_true_iff.1 silent)

/-- ACK NOTICES: an enabled flag left set gives ATTENTION, which clears armed (R180). -/
theorem quiet_ackNotices (q : ReqHead) (flags : NoticeSet) (s : State) :
    ArmedQuiet (finish q (clearPending (actAckNotices flags s))) := by
  by_cases left : noticeAny (noticeAnd (noticeMinus s.notices flags) s.enables) = true
  · rw [finish_attention (ackNotices_attention left)]
    exact quiet_of_disarmed (emitAttention_armed _)
  · rw [finish_nothing (ackNotices_nothing left)]
    exact fun _ => Bool.eq_false_iff.2 left

/-- SET ENABLES: while armed is set, a flag set under a new enable gives ATTENTION, which clears armed (R181). -/
theorem quiet_setEnables (q : ReqHead) (enables : NoticeSet) {s : State} (quiet : ArmedQuiet s) :
    ArmedQuiet (finish q (clearPending (actSetEnables enables s))) := by
  by_cases new : s.armed = true ∧ noticeAny (noticeAnd s.notices (noticeMinus enables s.enables)) = true
  · obtain ⟨armed, new⟩ := new
    rw [finish_attention (setEnables_attention armed new)]
    exact quiet_of_disarmed (emitAttention_armed _)
  · rw [finish_nothing (setEnables_nothing new)]
    intro (armed : s.armed = true)
    have none : noticeAny (noticeAnd s.notices (noticeMinus enables s.enables)) = false :=
      Bool.eq_false_iff.2 fun set => new ⟨armed, set⟩
    exact noneEnabled_of_newEnables (quiet armed) none

/-- A request whose answer is quiet on every quiet state keeps the condition, whatever it does to enables and armed. -/
theorem quiet_serve_of_answer {q : ReqHead} {body : ReqBody} {act : State → Answer}
    (k : ∀ {u}, ArmedQuiet u → ArmedQuiet (finish q (clearPending (act u)))) {s : State} (quiet : ArmedQuiet s) :
    ArmedQuiet (serve q body act s) := by
  obtain same | ⟨w, mask, waits⟩ | ⟨w, mask, notices, taken⟩ :=
    takeFrame_cases .fwd (.request q body) (isTarget q) (fun t => finish q (clearPending (act t))) s
  · unfold serve; rw [same]; exact quiet
  · unfold serve; rw [waits]; exact (NotRearmed.of_masking mask).quiet_endEvent quiet
  · unfold serve; rw [taken]; exact quiet_endEvent (k (quiet.of_same mask notices))

/-! ## Pins, time and the link -/

theorem quiet_next {x t : State} (quiet : ArmedQuiet x) (h : (.next x : Host.Outcome State Fault Refusal) = .next t) :
    ArmedQuiet t := by
  cases h; exact quiet

theorem quiet_offerDeadline {g : Handle} {s t : State} (quiet : ArmedQuiet s) (h : execOfferDeadline g s = .next t) :
    ArmedQuiet t := by
  refine quiet_next ?_ h
  split
  · rw [withdrawOffer_only]; exact quiet
  · exact quiet

theorem quiet_reservationLapse {g : Handle} {s t : State} (quiet : ArmedQuiet s) (h : execReservationLapse g s = .next t) :
    ArmedQuiet t := by
  have mask : masking (lapse s g) = masking s := by simp [lapse]
  refine quiet_next ?_ h
  split
  · exact (NotRearmed.of_masking mask).quiet_endEvent quiet
  · exact quiet

theorem quiet_travelTimerExpiry {id : Nat} {s t : State} (quiet : ArmedQuiet s)
    (h : execTravelTimerExpiry id s = .next t) : ArmedQuiet t := by
  unfold execTravelTimerExpiry at h
  split at h
  · exact quiet_next quiet h
  · refine quiet_next ?_ h
    split
    · exact (NotRearmed.of_masking (masking_expireTravel ..)).quiet_endEvent quiet
    · exact quiet

theorem quiet_frameArrival {p : InPort} {wire : List Byte} {f : Frame} {s t : State} (quiet : ArmedQuiet s)
    (h : execFrameArrival p wire f s = .next t) : ArmedQuiet t := by
  unfold execFrameArrival at h
  split at h
  · exact quiet_next quiet h
  split at h
  · exact quiet_next quiet h
  · exact quiet_next ((NotRearmed.of_masking (masking_raiseNotice ..)).quiet_endEvent quiet) h
  · exact quiet_next ((NotRearmed.of_masking (masking_arrive ..)).quiet_endEvent quiet) h

theorem quiet_sendFwd {s : State} (quiet : ArmedQuiet s) : ArmedQuiet (sendFwd s) := by
  fun_cases sendFwd s <;> exact quiet

theorem quiet_advanceSection {s : State} (quiet : ArmedQuiet s) : ArmedQuiet (advanceSection s) := by
  have passed (k : Token) : ArmedQuiet (passToken s k) := by
    unfold passToken; dsimp only; split <;> exact quiet
  fun_cases advanceSection s with
  | case1 => exact quiet
  | case2 k => exact passed k
  | case3 => exact quiet

theorem quiet_reportSent {s : State} (f : Frame) (quiet : ArmedQuiet s) : ArmedQuiet (reportSent s f) := by
  have drained : ArmedQuiet { s with buffer := s.buffer.drop Config.recordsPerFrame } := quiet
  unfold reportSent
  split
  · split
    · exact quiet_advanceSection quiet
    · exact quiet
  · split
    · exact quiet_advanceSection drained
    · exact quiet
  · split <;> exact quiet
  · exact quiet

theorem quiet_sendRet {s : State} (quiet : ArmedQuiet s) : ArmedQuiet (sendRet s) := by
  unfold sendRet
  split
  · exact quiet
  · exact quiet
  · split
    · exact quiet
    · exact quiet_reportSent (s := { s with origRet := _, lastRet := .originated, drivenRet := _ }) _ quiet

theorem quiet_arbiterSend {o : OutPort} {heldOff : Bool} {s t : State} (quiet : ArmedQuiet s)
    (h : execArbiterSend o heldOff s = .next t) : ArmedQuiet t := by
  unfold execArbiterSend at h
  split at h
  · exact quiet_next quiet h
  split at h
  · exact quiet_next (quiet_sendFwd quiet) h
  · exact quiet_next (quiet_sendRet quiet) h

/-! ## Every command -/

/-- Every command keeps the condition of R179. -/
theorem quiet_exec (c : Instr) {s t : State} (quiet : ArmedQuiet s) (h : exec c s = .next t) : ArmedQuiet t := by
  cases c with
  | powerOn r p => exact quiet_next (x := { powerOnState _ p with pending := s.pending }) (fun _ => rfl) h
  | resetAssert => exact quiet_next (x := { s with inReset := true, drivenFwd := none, drivenRet := none }) quiet h
  | stowClockTick =>
    refine quiet_next ?_ (show execStowClockTick s = .next t from h)
    split <;> exact quiet
  | offerDeadline g => exact quiet_offerDeadline quiet h
  | reservationLapse g => exact quiet_reservationLapse quiet h
  | travelTimerExpiry id => exact quiet_travelTimerExpiry quiet h
  | reportTimerExpiry =>
    refine quiet_next ?_ (show execReportTimerExpiry s = .next t from h)
    split <;> exact quiet
  | frameArrival p wire f => exact quiet_frameArrival quiet h
  | arbiterSend o held => exact quiet_arbiterSend quiet h
  | passThrough p f => exact quiet_next (quiet_takeFrame (fun u => .of_masking (by cases p <;> rfl)) quiet) h
  | checkIn c => exact quiet_next (quiet_takeFrame (fun u => .of_masking (masking_actCheckIn c u)) quiet) h
  | confirm c => exact quiet_next (quiet_takeFrame (fun u => .of_masking (masking_actConfirm c u)) quiet) h
  | freed pos => exact quiet_next (quiet_takeFrame (fun u => .of_masking (masking_actFreed pos u)) quiet) h
  | tallyOn m l d placed =>
    exact quiet_next (quiet_takeFrame (fun u => .of_masking (masking_actTallyOn m l d placed u)) quiet) h
  | tallyOff m l removed =>
    exact quiet_next (quiet_takeFrame (fun u => .of_masking (masking_actTallyOff m l removed u)) quiet) h
  | hoistStatusDown target id =>
    exact quiet_next (quiet_takeFrame (fun u => .of_masking (masking_actHoistStatus target id true u)) quiet) h
  | hoistStatusUp target id =>
    exact quiet_next (quiet_takeFrame (fun u => .of_masking (masking_actHoistStatus target id false u)) quiet) h
  | trailer n count => exact quiet_next (quiet_takeFrame (fun u => .of_masking (masking_actTrailer n count u)) quiet) h
  | reportToken k => exact quiet_next (quiet_takeFrame (fun u => .of_masking (masking_actReportToken k u)) quiet) h
  | laneMask lanes action => exact quiet_next (quiet_takeOrder (masking_actLaneMask lanes action) quiet) h
  | abort => exact quiet_next (quiet_takeOrder masking_actAbort quiet) h
  | sealOrder => exact quiet_next (quiet_takeOrder masking_actSeal quiet) h
  | unsealOrder advance => exact quiet_next (quiet_takeOrder (masking_actUnseal advance) quiet) h
  | cancel m => exact quiet_next (quiet_takeOrder (masking_actCancel m) quiet) h
  | clock value =>
    have set (u : State) : masking { u with stowClock := value } = masking u := rfl
    exact quiet_next (quiet_takeOrder set quiet) h
  | identify => exact quiet_next (quiet_takeOrder (fun u => masking_emitRet u (identFrame u)) quiet) h
  | requestPassedOn q body =>
    exact quiet_next (quiet_takeFrame (fun u => .of_masking (masking_passDown u (.request q body))) quiet) h
  | noEngineReply q body => exact quiet_next (quiet_takeFrame (fun u => .of_masking (masking_emitRet u _)) quiet) h
  | unknownRequest q kind body => exact quiet_next (quiet_serve (fun _ => rfl) quiet) h
  | writeRange q base count => exact quiet_next (quiet_serve (masking_actWriteRange base count) quiet) h
  | writeLane q l f => exact quiet_next (quiet_serve (masking_actWriteLane l f) quiet) h
  | writeLaneUndefine q l => exact quiet_next (quiet_serve (masking_actUndefineLane l) quiet) h
  | writeDeck q deck limit => exact quiet_next (quiet_serve (masking_actWriteDeck deck limit) quiet) h
  | writeDeckRemove q deck => exact quiet_next (quiet_serve (masking_actRemoveDeck deck) quiet) h
  | writeSection q id hoist covered reduced travel =>
    exact quiet_next (quiet_serve (masking_actWriteSection id hoist covered reduced travel) quiet) h
  | writeSectionRemove q id => exact quiet_next (quiet_serve (masking_actRemoveSection id) quiet) h
  | writeSegregation q ts => exact quiet_next (quiet_serve (masking_actWriteSegregation ts) quiet) h
  | writeLimits q hLim tMin tMax => exact quiet_next (quiet_serve (masking_actWriteLimits hLim tMin tMax) quiet) h
  | writePolicy q f => exact quiet_next (quiet_serve (masking_actWritePolicy f) quiet) h
  | writeGaps q g => exact quiet_next (quiet_serve (masking_actWriteGaps g) quiet) h
  | writeDefaultUnit q d => exact quiet_next (quiet_serve (masking_actWriteDefaultUnit d) quiet) h
  | readProfile q item => exact quiet_next (quiet_serve (fun u => congrArg masking (actReadProfile_st item u)) quiet) h
  | readUnit q key => exact quiet_next (quiet_serve (fun u => congrArg masking (actReadUnit_st key u)) quiet) h
  | readLane q l start => exact quiet_next (quiet_serve (fun u => congrArg masking (actReadLane_st l start u)) quiet) h
  | readStowSummary q => exact quiet_next (quiet_serve (fun _ => rfl) quiet) h
  | evaluate q d l => exact quiet_next (quiet_serve (fun u => congrArg masking (actEvaluate_st d l u)) quiet) h
  | trial q d => exact quiet_next (quiet_serve (masking_actTrial d) quiet) h
  | undo q => exact quiet_next (quiet_serve masking_actUndo quiet) h
  | commitTrials q => exact quiet_next (quiet_serve masking_actCommitTrials quiet) h
  | readHoldList q start => exact quiet_next (quiet_serve (fun u => congrArg masking (actReadHoldList_st start u)) quiet) h
  | deploy q id => exact quiet_next (quiet_serve (masking_actDeploy id) quiet) h
  | stow q id => exact quiet_next (quiet_serve (masking_actStow id) quiet) h
  | openVoyage q => exact quiet_next (quiet_serve masking_actOpenVoyage quiet) h
  | clearVoyage q =>
    exact quiet_next
      (quiet_takeFrame (fun u => (NotRearmed.of_masking (masking_actClearVoyage u)).trans (notRearmed_finish q _)) quiet) h
  | ballast q heel trim => exact quiet_next (quiet_serve (masking_actBallast heel trim) quiet) h
  | readVoyage q => exact quiet_next (quiet_serve (fun _ => rfl) quiet) h
  | report q f => exact quiet_next (quiet_serve (masking_actReport f) quiet) h
  | drainLog q count => exact quiet_next (quiet_serve (masking_actDrainLog count) quiet) h
  | ackNotices q flags => exact quiet_next (quiet_serve_of_answer (fun _ => quiet_ackNotices q flags _) quiet) h
  | setEnables q enables => exact quiet_next (quiet_serve_of_answer (quiet_setEnables q enables) quiet) h

/-- Settles O57: `quiet_exec`, whose key is that an event which leaves enables and armed alone ends quiet. -/
theorem stepKeepsArmedQuiet : Obligations.StepKeepsArmedQuiet := by
  intro s t quiet h
  unfold step at h
  split at h
  · exact quiet_next quiet h
  · rename_i c rest _
    have popped : ArmedQuiet { s with pending := rest } := quiet
    exact quiet_exec c popped h

/-! ## The log and the notices (O26, O53, O54) -/

/-- Settles O26: by the room in the log, and by the test at the end of an event. -/
theorem postingAndAttention : Obligations.PostingAndAttention := by
  refine ⟨fun s k m l m2 d => rfl, fun s t => ?_⟩
  simp only [endEvent, Bool.and_eq_true]
  rfl

/-- Settles O53: a count out of bounds is refused, any other takes the oldest records off the log. -/
theorem drainLogAnswers : Obligations.DrainLogAnswers := by
  intro q n s ready
  change Host.Outcome.next (serve q (.drainLog n) (actDrainLog n) s) = _
  by_cases bad : n < 1 ∨ 3 < n
  · rw [if_pos bad]
    exact serve_refuses ready (if_pos bad)
  · rw [if_neg bad, ← List.length_drop]
    have act : actDrainLog n (took .fwd s)
        = answer { took .fwd s with log := s.log.drop n } (.drained (s.log.take n) (s.log.drop n).length s.nextExc) :=
      if_neg bad
    exact serve_takes ready act rfl

/-- A request answered with its effect and ATTENTION behind the REPLY, which clears armed, so that the event ends with no
second one (R180, R181). -/
theorem serve_attention {q : ReqHead} {body : ReqBody} {act : State → Answer} {s t : State} (h : Addressed q body s)
    {code : ReplyCode} {b : ReplyBody}
    (ha : act (took .fwd s) = { st := t, code := code, body := b, after := .attention }) :
    serve q body act s
      = emitAttention { t with pendingClear := false, origRet := t.origRet ++ [.reply q.tag t.position code b] } := by
  rw [serve_addressed h, ha]
  exact endEvent_disarmed (emitAttention_armed _)

/-- A request answered with its effect, flags cleared and nothing to follow. -/
theorem serve_clears {q : ReqHead} {body : ReqBody} {act : State → Answer} {s t : State} (h : Addressed q body s)
    {code : ReplyCode} {b : ReplyBody}
    (ha : act (took .fwd s) = { st := t, code := code, body := b, after := .nothing }) {flags : NoticeSet}
    (cleared : t.notices = noticeMinus s.notices flags) :
    serve q body act s = { t with pendingClear := false, origRet := t.origRet ++ [.reply q.tag t.position code b] } := by
  rw [serve_event h ha]
  exact endEvent_cleared cleared

/-- ACK NOTICES, addressed: what its action leaves, and ATTENTION where an enabled flag is left set (R180). -/
theorem actAckNotices_took (flags : NoticeSet) (s : State) : actAckNotices flags (took .fwd s) =
    { st := { took .fwd s with notices := noticeMinus s.notices flags, armed := true }, code := .ok
      body := .notices (noticeMinus s.notices flags) s.enables true
      after := if noticeAny (noticeAnd (noticeMinus s.notices flags) s.enables) then .attention else .nothing } := rfl

/-- SET ENABLES, addressed: what its action leaves, and ATTENTION where armed and a newly enabled flag are set (R181). -/
theorem actSetEnables_took (enables : NoticeSet) (s : State) : actSetEnables enables (took .fwd s) =
    { st := { took .fwd s with enables := enables }, code := .ok, body := .notices s.notices enables s.armed
      after :=
        if s.armed && noticeAny (noticeAnd s.notices (noticeMinus enables s.enables)) then .attention else .nothing } := rfl

/-- Settles O54: neither request sets a flag, so that the only ATTENTION is the one behind its REPLY. -/
theorem ackNoticesAndSetEnables : Obligations.AckNoticesAndSetEnables := by
  constructor
  · intro q flags s ready left t
    change Host.Outcome.next (serve q (.ackNotices flags) (actAckNotices flags) s) = _
    have act := actAckNotices_took flags s
    by_cases set : noticeAny (noticeAnd left s.enables) = true
    · rw [if_pos set] at act ⊢
      exact congrArg _ (serve_attention ready act)
    · rw [if_neg set] at act ⊢
      exact congrArg _ (serve_clears ready act rfl)
  · intro q enables s ready t
    change Host.Outcome.next (serve q (.setEnables enables) (actSetEnables enables) s) = _
    have act := actSetEnables_took enables s
    by_cases new : s.armed = true ∧ noticeAny (noticeAnd s.notices (noticeMinus enables s.enables)) = true
    · rw [if_pos (Bool.and_eq_true_iff.2 new)] at act
      rw [if_pos new]
      exact congrArg _ (serve_attention ready act)
    · rw [if_neg (mt Bool.and_eq_true_iff.1 new)] at act
      rw [if_neg new]
      exact congrArg _ (serve_next ready act rfl)

end Sys2Proof.Machine

namespace Sys2Proof.Machine

/-! # The marshalling link (O4, O8, O11) -/

/-! ## Commands that take a frame -/

/-- A command with a frame is one taking of it, whatever the state: only the row's own condition and its action differ. -/
theorem exec_of_commandFrame {c : Instr} {p : InPort} {f : Frame} (frame : commandFrame c = some (p, f)) :
    ∃ mine act, ∀ s, exec c s = .next (takeFrame p f mine act s) := by
  cases c <;> cases frame
  all_goals exact ⟨_, _, fun _ => rfl⟩

/-! ## Reset (O4) -/

theorem frameArrival_reset {p : InPort} {wire : List Byte} {f : Frame} {s : State} (held : s.inReset = true) :
    exec (.frameArrival p wire f) s = .next s := by
  change execFrameArrival p wire f s = _
  unfold execFrameArrival; rw [held]; rfl

theorem arbiterSend_reset {o : OutPort} {heldOff : Bool} {s : State} (held : s.inReset = true) :
    exec (.arbiterSend o heldOff) s = .next s := by
  change execArbiterSend o heldOff s = _
  unfold execArbiterSend; rw [held]; rfl

theorem offerDeadline_reset {h : Handle} {s : State} (held : s.inReset = true) : exec (.offerDeadline h) s = .next s := by
  change execOfferDeadline h s = _
  unfold execOfferDeadline; rw [held]; rfl

theorem reservationLapse_reset {h : Handle} {s : State} (held : s.inReset = true) :
    exec (.reservationLapse h) s = .next s := by
  change execReservationLapse h s = _
  unfold execReservationLapse; rw [held]; rfl

theorem travelTimerExpiry_reset {id : Nat} {s : State} (held : s.inReset = true) :
    exec (.travelTimerExpiry id) s = .next s := by
  cases defined : Table.find s.sections id with
  | none => exact travelTimerExpiry_undefined defined
  | some e =>
    change execTravelTimerExpiry id s = _
    unfold execTravelTimerExpiry; rw [defined, held]; rfl

theorem reportTimerExpiry_reset {s : State} (held : s.inReset = true) : exec .reportTimerExpiry s = .next s := by
  change execReportTimerExpiry s = _
  unfold execReportTimerExpiry; rw [held]; rfl

/-- In reset every command but POWER_ON and RESET_ASSERT idles: no frame is taken, nothing counts, arrives or is sent. -/
theorem exec_reset {c : Instr} {s : State} (held : s.inReset = true) (powerOn : ∀ r p, c ≠ .powerOn r p)
    (resetAssert : c ≠ .resetAssert) : exec c s = .next s := by
  cases frame : commandFrame c with
  | some taken =>
    obtain ⟨mine, act, takes⟩ := exec_of_commandFrame (p := taken.1) (f := taken.2) frame
    rw [takes, takeFrame_reset held]
  | none =>
    cases c with
    | powerOn r p => exact absurd rfl (powerOn r p)
    | resetAssert => exact absurd rfl resetAssert
    | stowClockTick => exact stowClockTick_reset held
    | offerDeadline h => exact offerDeadline_reset held
    | reservationLapse h => exact reservationLapse_reset held
    | travelTimerExpiry id => exact travelTimerExpiry_reset held
    | reportTimerExpiry => exact reportTimerExpiry_reset held
    | frameArrival p wire f => exact frameArrival_reset held
    | arbiterSend o heldOff => exact arbiterSend_reset held
    | _ => cases frame

theorem holdOff_iff {s : State} {p : InPort} : holdOff s p = true ↔ s.inReset = true ∨ 16 ≤ (rxQueue s p).length := by
  unfold holdOff
  rw [Bool.or_eq_true, decide_eq_true_iff]

/-- Settles O4: by what each command does in reset. -/
theorem resetHoldsTheEngine : Obligations.ResetHoldsTheEngine := by
  intro s
  refine ⟨rfl, fun held => ⟨?_, ?_⟩, fun held c => exec_reset held⟩
  all_goals exact holdOff_iff.2 (.inl held)

/-! ## The frame check (O8) -/

/-- One bit of a message taken into the check (R182). -/
def crcBit (c : BitVec 16) (bit : Bool) : BitVec 16 := if c.msb ≠ bit then (c <<< 1) ^^^ 0x1021#16 else c <<< 1

/-- The bit of a byte that stands at the top of the register, where `n` more stand below it. -/
theorem msb_byte_shifted (b : Byte) {n : Nat} (h : n < 16) : (b.zeroExtend 16 <<< (15 - n)).msb = b.getLsbD n := by
  rw [BitVec.msb_eq_getLsbD_last, BitVec.getLsbD_shiftLeft]
  have place : 16 - 1 - (15 - n) = n := by omega
  simp [place, h]

/-- The shifts of the check with the low `n` bits of a byte at the register's top take those bits in, highest first; the rest
of the register holds the check so far, as a bit of the check is linear. -/
theorem crcShifts_xor_byte (b : Byte) {n : Nat} (h : n ≤ 16) (c : BitVec 16) :
    crcShifts n (c ^^^ (b.zeroExtend 16 <<< (16 - n))) = (List.range n).reverse.foldl (fun c i => crcBit c (b.getLsbD i)) c := by
  induction n generalizing c with
  | zero => simp [crcShifts]
  | succ n ih =>
    have top : crcShift (c ^^^ (b.zeroExtend 16 <<< (16 - (n + 1))))
        = crcBit c (b.getLsbD n) ^^^ (b.zeroExtend 16 <<< (16 - n)) := by
      have below : 16 - (n + 1) = 15 - n := by omega
      have next : 15 - n + 1 = 16 - n := by omega
      rw [crcShift_xor, below, msb_byte_shifted b (by omega), ← BitVec.shiftLeft_add, next]
      rfl
    rw [crcShifts, top, ih (by omega), List.range_succ, List.reverse_append]
    rfl

theorem crcByte_eq_foldl (c : BitVec 16) (b : Byte) :
    crcByte c b = [7, 6, 5, 4, 3, 2, 1, 0].foldl (fun c i => crcBit c (b.getLsbD i)) c :=
  crcShifts_xor_byte b (n := 8) (by decide) c

theorem frameCheck_append (l : List Byte) (b : Byte) : frameCheck (l ++ [b]) = crcByte (frameCheck l) b := by
  unfold frameCheck
  rw [List.foldl_append]; rfl

/-! ## The tests of an arriving frame (O8) -/

theorem beBytes_beNat_pair (a b : Byte) : beBytes 2 (beNat [a, b]) = [a, b] := by
  have value : beNat [a, b] = 256 * a.toNat + b.toNat := by
    rw [← beNat_singleton a]; exact beNat_append [a] b
  have high : BitVec.ofNat 8 ((256 * a.toNat + b.toNat) / 256 ^ 1) = a := by
    apply BitVec.eq_of_toNat_eq
    rw [BitVec.toNat_ofNat]; omega
  have low : BitVec.ofNat 8 ((256 * a.toNat + b.toNat) / 256 ^ 0) = b := by
    apply BitVec.eq_of_toNat_eq
    rw [BitVec.toNat_ofNat]; omega
  simp only [beBytes, value, high, low]

/-- Two bytes carry a word just where they are its bytes. -/
theorem beNat_eq_word_iff {l : List Byte} (two : l.length = 2) (x : BitVec 16) :
    beNat l = x.toNat ↔ l = beBytes 2 x.toNat := by
  constructor
  · intro value
    obtain ⟨a, b, rfl⟩ := List.length_eq_two.1 two
    rw [← value, beBytes_beNat_pair]
  · rintro rfl
    exact beNat_beBytes_toNat (k := 2) x

theorem testArrival_outside {junk : List Byte} (h : ∀ b ∈ junk, b ≠ 0x7E#8) : testArrival junk = .outside := by
  have dropped : junk.dropWhile (fun b => b != 0x7E#8) = [] :=
    List.dropWhile_eq_nil_iff.2 fun b mem => bne_iff_ne.2 (h b mem)
  unfold testArrival
  rw [dropped]; rfl

theorem testArrival_junk {junk : List Byte} (rest : List Byte) (h : ∀ b ∈ junk, b ≠ 0x7E#8) :
    testArrival (junk ++ 0x7E#8 :: rest) = testFrame (0x7E#8 :: rest) :=
  congrArg testFrame (dropWhile_junk h)

/-- A frame with no length byte fails (R184). -/
theorem testFrame_short {rest : List Byte} (d : Byte) (h : rest.length < 2) : testFrame (d :: rest) = .fails := by
  match rest with
  | [] => rfl
  | [_] => rfl
  | _ :: _ :: _ => simp at h

section
variable {d type len : Byte} {body : List Byte}

/-- A frame whose length byte is out of bounds or is not met fails (R184). -/
theorem testFrame_length (h : len.toNat < 8 ∨ 72 < len.toNat ∨ body.length + 3 < len.toNat) :
    testFrame (d :: type :: len :: body) = .fails := by
  by_cases bounds : len.toNat < 8 ∨ 72 < len.toNat
  · exact if_pos bounds
  · have short : body.length + 3 < len.toNat := by omega
    exact (if_neg bounds).trans (if_pos short)

/-- A frame whose length is in order passes or fails by its check alone (R184). -/
theorem testFrame_check (low : 8 ≤ len.toNat) (high : len.toNat ≤ 72) (whole : len.toNat ≤ body.length + 3) :
    testFrame (d :: type :: len :: body) =
      if (body.drop (len.toNat - 5)).take 2 = beBytes 2 (frameCheck (type :: len :: body.take (len.toNat - 5))).toNat then
        .passes
      else .fails := by
  have two : ((body.drop (len.toNat - 5)).take 2).length = 2 := by
    rw [List.length_take, List.length_drop]; omega
  simp only [testFrame, if_neg (show ¬ (len.toNat < 8 ∨ 72 < len.toNat) by omega),
    if_neg (show ¬ body.length + 3 < len.toNat by omega), beNat_eq_word_iff two]

end

/-! ## Arrival (O8) -/

theorem unconnected_iff {s : State} {p : InPort} :
    unconnected s p = true ↔ p = .ret ∧ (s.role = .tail ∨ s.role = .sole) := by
  unfold unconnected
  cases p <;> cases s.role <;> decide

theorem arrive_connected {s : State} {p : InPort} (f : Frame) (connected : ¬ unconnected s p = true) :
    arrive s p f = if (rxQueue s p).length < 16 then setRxQueue s (rxQueue s p ++ [f]) p else raiseNotice s .linkError :=
  if_neg connected

/-- FRAME_ARRIVAL on a connected input, out of reset: by the tests, then by the room in the queue (R183, R184). -/
theorem frameArrival_connected {p : InPort} {wire : List Byte} {f : Frame} {s : State} (out : s.inReset = false)
    (connected : ¬ unconnected s p = true) :
    exec (.frameArrival p wire f) s = .next
      (match testArrival wire with
      | .outside => s
      | .fails => endEvent s (raiseNotice s .linkError)
      | .passes =>
        if (rxQueue s p).length < 16 then setRxQueue s (rxQueue s p ++ [f]) p else endEvent s (raiseNotice s .linkError)) := by
  change execFrameArrival p wire f s = _
  unfold execFrameArrival
  rw [out, Bool.false_or, if_neg connected]
  cases testArrival wire with
  | outside => rfl
  | fails => rfl
  | passes =>
    dsimp only
    rw [arrive_connected f connected]
    by_cases room : (rxQueue s p).length < 16
    · rw [if_pos room, if_pos room, endEvent_same (setRxQueue_notices ..)]
    · rw [if_neg room, if_neg room]

theorem frameArrival_unconnected {p : InPort} {wire : List Byte} {f : Frame} {s : State} (h : unconnected s p = true) :
    exec (.frameArrival p wire f) s = .next s :=
  if_pos (by rw [h, Bool.or_true])

/-- Settles O8: the arrival by its tests, the check bit by bit, and every command with a frame as one taking of it. -/
theorem framesArriveAndWaitInLine : Obligations.FramesArriveAndWaitInLine := by
  refine ⟨fun p wire f s out => ?_, fun junk rest body type len clean => ?_, ⟨rfl, fun l b => ?_⟩, fun s p => ?_,
    fun c p f g s frame out connected => ?_⟩
  · by_cases h : unconnected s p = true
    · rw [frameArrival_unconnected h, if_pos (unconnected_iff.1 h)]
    · rw [if_neg (mt unconnected_iff.2 h)]
      exact frameArrival_connected out h
  · dsimp only
    refine ⟨testArrival_outside clean, fun short => ?_, fun length => ?_, fun low high whole check => ?_,
      fun low high whole check => ?_⟩ <;> rw [testArrival_junk _ clean]
    · exact testFrame_short _ short
    · exact testFrame_length length
    · rw [testFrame_check low high whole, if_pos check]
    · rw [testFrame_check low high whole, if_neg check]
  · rw [frameCheck_append, crcByte_eq_foldl]; rfl
  · rw [holdOff_iff]
    cases p <;> rfl
  · obtain ⟨mine, act, takes⟩ := exec_of_commandFrame frame
    refine ⟨fun first shut => ?_, fun first other => ?_, fun empty => ?_⟩ <;> rw [takes]
    · rw [takeFrame_waits first (.inl shut)]
    · rw [takeFrame_behind out connected first other]
    · rw [takes, takeFrame_empty out connected empty]

/-! ## Frames that go on (O11) -/

/-- A frame taken by a row whose action sets no flag: the event ends with its effect alone. -/
theorem takeFrame_plain {p : InPort} {f : Frame} {mine : State → Bool} {act : State → State} {s : State} (ready : Ready p f s)
    (own : mine s = true) (quiet : (act (took p s)).notices = s.notices) : takeFrame p f mine act s = act (took p s) := by
  rw [takeFrame_ready ready own, endEvent_same quiet]

theorem answersAbsent_iff {s : State} : answersAbsent s = true ↔ s.role = .tail ∨ s.role = .sole := by
  unfold answersAbsent
  rw [Bool.or_eq_true, beq_iff_eq, beq_iff_eq]

theorem answersAbsent_false {s : State} (h : s.role = .head ∨ s.role = .mid) : answersAbsent s = false := by
  unfold answersAbsent
  obtain role | role := h <;> rw [role] <;> rfl

theorem isTarget_false {q : ReqHead} {s : State} (h : q.target ≠ s.position) : isTarget q s = false :=
  beq_eq_false_iff_ne.2 h

/-- Settles O11: each row's own condition holds of its frame, and none of the actions sets a flag. -/
theorem framesNotForThisEngine : Obligations.FramesNotForThisEngine := by
  refine ⟨fun f => ?_, fun p f s ready foreign => ?_, fun q body s ready elsewhere => ⟨fun role => ?_, fun role => ?_⟩,
    fun q kind body s ready => ?_⟩
  · cases f <;> exact ⟨rfl, rfl⟩
  · change Host.Outcome.next (takeFrame p f (fun _ => !actsOn p f) (passOn p f) s) = _
    rw [takeFrame_plain ready (by rw [foreign]; rfl) (by cases p <;> rfl)]
    cases p <;> rfl
  · have own : (!isTarget q s && !answersAbsent s) = true := by rw [isTarget_false elsewhere, answersAbsent_false role]; rfl
    exact congrArg Host.Outcome.next (takeFrame_plain ready own rfl)
  · have own : (!isTarget q s && answersAbsent s) = true := by
      rw [isTarget_false elsewhere, answersAbsent_iff.2 role]; rfl
    exact congrArg Host.Outcome.next (takeFrame_plain ready own rfl)
  · exact serve_refuses ready rfl

end Sys2Proof.Machine

namespace Sys2Proof.Machine

/-! ## The step by its queue (O1, log 1) -/

theorem step_of_pending_cons {c : Instr} {rest : List Instr} {s : State} (waiting : s.pending = c :: rest) :
    step s = exec c { s with pending := rest } := by
  unfold step
  rw [waiting]

theorem step_of_pending_nil {s : State} (empty : s.pending = []) : step s = .next s := by
  unfold step
  rw [empty]

/-- Settles O1, by the two forms of the queue. -/
theorem stepTakesTheFront : Obligations.StepTakesTheFront :=
  fun _ _ _ => ⟨step_of_pending_cons, step_of_pending_nil⟩

end Sys2Proof.Machine
